-- ==== Sys2Proof/Word.lean ====
section
/-! DEFINITION. The value types of 00_scope.md rule R7 that have no structure of their own: bytes and levels. -/

namespace Sys2Proof

/-- A byte, 8 bits, `b[7]` most significant (00_scope.md R7). -/
abbrev Byte := BitVec 8

/-- A line level: `false` is 0 (low), `true` is 1 (high) (00_scope.md R7). -/
abbrev Level := Bool

end Sys2Proof
end

