-- ==== Sys2Proof/Config.lean ====
section
/-! DEFINITION. The parameters the spec leaves OPEN (00_scope.md rule R6) and the free values. An OPEN parameter is an
opaque constant: no proof can see its value, so a theorem holds for every value the spec admits. -/

namespace Sys2Proof

/-- The two admissible values of `INIT_BRIGHTNESS`, "middle value" (00_scope.md R6, 92_eei_decisions.md D8). -/
inductive MiddleLevel where
  | three
  | four
deriving DecidableEq, Repr, Inhabited

/-- `UNINIT_POLICY` (00_scope.md R6, 92_eei_decisions.md D12): what an operation before INIT reports. -/
inductive UninitPolicy where
  | noop
  | fault
deriving DecidableEq, Repr, Inhabited

/-- The OPEN parameters of 00_scope.md R6, taken as one argument by every definition that depends on one.
`letters i` is LETTER_GLYPH for the `i`-th letter of the ASCII alphabet (0 is A): `none` outside the domain, else the
glyphs of its upper and its lower case, 7 bits each. So the constraints of 42_segment_encoder.md R154 hold by the type:
the domain is a subset of the ASCII letters, bit 7 of every glyph is 0, and a letter with a single glyph is the pair
`(g, g)` (log 18). The sixth OPEN parameter,
`PinId`, is a type: Syntax.lean builds it over `Config.isPin`. -/
structure Params where
  initBrightness : MiddleLevel
  uninitPolicy   : UninitPolicy
  strictRange    : Bool
  hexDigits      : Bool
  letters        : Nat → Option (BitVec 7 × BitVec 7)

namespace Config

/-- INIT_BRIGHTNESS, OPEN in {3, 4} (R6, D8). -/
opaque initBrightness : MiddleLevel
/-- UNINIT_POLICY, OPEN (R6, D12). -/
opaque uninitPolicy : UninitPolicy
/-- STRICT_RANGE, OPEN (R6, D13). -/
opaque strictRange : Bool
/-- HEX_DIGITS, OPEN (R6, D14). -/
opaque hexDigits : Bool
/-- LETTER_GLYPH, OPEN under the constraints of 42_segment_encoder.md R154 (R6, D17). -/
opaque letters : Nat → Option (BitVec 7 × BitVec 7)

/-- PinId, OPEN (R6, D32): which names beyond two are pin identifiers (Syntax.lean; log 3). -/
opaque isPin : Nat → Bool

/-- The parameters of this block. Everything about them is open. -/
def params : Params where
  initBrightness := initBrightness
  uninitPolicy := uninitPolicy
  strictRange := strictRange
  hexDigits := hexDigits
  letters := letters

/-- FREE VALUE (log 5): whether the peer pulls DIO low at the `n`-th sample. Nothing constrains it
(92_eei_decisions.md D31: "Each ACK sample's level is a free draw"). DESIGN CHOICE: it is indexed by the count of samples
since power-up alone, so it is one stream of draws for one run of one block; two runs, or two instances
(60_exceptions.md R244), have streams of their own, which the spec relates in no way and the model does not show. -/
opaque peerPull : Nat → Bool

/-- T_STEP = 5 µs, the lower bound of each Wait (R6, D2). The model has no time; only the counts of
40_bus_transport.md R110 and 70_reset_and_hazards.md R270 use it. -/
def tStepMicros : Nat := 5

end Config
end Sys2Proof
end

