-- ==== Sys2Proof/Syntax.lean ====
section
/-! DEFINITION. The syntax: operand values, the words a request port can present, and Instr, one constructor per row of
spec/opcode_table.json. -/

namespace Sys2Proof

/-- A pin identifier, of the OPEN abstract type of 00_scope.md R6 (log 3): a name that is a pin of this block's host. Which
names are, is Config.isPin, an opaque parameter. Two are known to be, because the host must supply two distinct pins
(70_reset_and_hazards.md R262); of any third nothing can be proved. The number is only a name: Sys2Proof/Laws/Pins.lean
proves that every step commutes with any renaming of pins. -/
structure PinId where
  id    : Nat
  isPin : id < 2 ∨ Config.isPin id = true
deriving DecidableEq, Repr

/-- The two pins R262 asks of the host, as the spec's programs name them: P0 and P1 (95_test_vectors.md P1). -/
def programPin (k : Fin 2) : PinId := ⟨k.val, .inl k.isLt⟩

/-- The data-write modes of CMD_DATA (41_command_layer.md R131). -/
inductive AddrMode where
  | auto
  | fixed
deriving DecidableEq, Repr

/-- A segment frame: exactly 4 bytes, position 0 leftmost (00_scope.md R7). -/
structure Frame where
  f0 : Byte
  f1 : Byte
  f2 : Byte
  f3 : Byte
deriving DecidableEq, Repr

/-- An operand value as the host presents it. `other` is a value of none of the types of 30_encoding.md R78, for
example a non-integer number (R79, 92_eei_decisions.md D25). -/
inductive Operand where
  | pin (p : PinId)
  | int (v : Int)
  | bool (b : Bool)
  | text (t : List Char)
  | char (c : Char)
  | byte (b : Byte)
  | frame (f : Frame)
  | mode (m : AddrMode)
  | other
deriving DecidableEq, Repr

/-- The names of the rows with format INTERNAL and FUNC (30_encoding.md R81), for a direct call of one (log 7). -/
inductive Sub where
  | start | stop | writeByte
  | cmdData | cmdAddrData | cmdCtrlTx | render
  | encDigit | encChar | encNumber | applyColon | encTime | encText
deriving DecidableEq, Repr

/-- What can be presented to the block: `req`, a request with its 4-bit op-select code and operands (30_encoding.md
R78); `bus`, a transaction named by its bytes, first byte first (R76); `call`, a direct call of an internal subroutine
or an encoder function (R81, 40_bus_transport.md R113; log 7). -/
inductive PortWord where
  | req (code : BitVec 4) (ops : List Operand)
  | bus (bytes : List Byte)
  | call (sub : Sub) (ops : List Operand)
deriving DecidableEq, Repr

/-- The instructions: one constructor per row of spec/opcode_table.json, in the table's order. -/
inductive Instr where
  /-- INIT, code 0x0 (R192) -/
  | init (clk dio : PinId)
  /-- SET_BRIGHTNESS, code 0x1 (R193) -/
  | setBrightness (level : Int) (enabled : Bool)
  /-- CLEAR, code 0x2 (R194) -/
  | clear
  /-- SHOW_NUMBER, code 0x3 (R195) -/
  | showNumber (value : Int) (leadingZero : Bool)
  /-- SHOW_TIME, code 0x4 (R196) -/
  | showTime (minutes seconds : Int)
  /-- SHOW_RAW, code 0x5 (R197) -/
  | showRaw (b0 b1 b2 b3 : Int)
  /-- SHOW_TEXT, code 0x6 (R198) -/
  | showText (text : List Char)
  /-- SET_COLON, code 0x7 (R199) -/
  | setColon (c : Bool)
  /-- RESERVED_REQ, codes 0x8..0xF (R79) -/
  | reservedReq (code : BitVec 4)
  /-- CMD_DATA_AUTO, `S 40 P` (R131) -/
  | cmdDataAuto
  /-- CMD_DATA_FIXED, `S 44 P` (R131) -/
  | cmdDataFixed
  /-- CMD_ADDR, `S Cx dd P` (R132): the address field and the data byte -/
  | cmdAddr (a : BitVec 2) (dd : Byte)
  /-- CMD_CTRL, `S 8x P` (R133): the display-on bit and the brightness field -/
  | cmdCtrl (e : Bool) (b : BitVec 3)
  /-- START (R106) -/
  | start
  /-- STOP (R107) -/
  | stop
  /-- WRITE_BYTE (R108) -/
  | writeByte (b : Byte)
  /-- CMD_DATA (R131) -/
  | cmdData (mode : AddrMode)
  /-- CMD_ADDR_DATA (R132) -/
  | cmdAddrData (a : Int) (d : Byte)
  /-- CMD_CTRL_TX, the rule's CMD_CTRL(e, br) (R133) -/
  | cmdCtrlTx (e : Bool) (br : Int)
  /-- RENDER (R134) -/
  | render (frame : Frame) (e : Bool) (br : Int)
  /-- ENC_DIGIT (R156) -/
  | encDigit (d : Int)
  /-- ENC_CHAR (R157) -/
  | encChar (c : Char)
  /-- ENC_NUMBER (R158) -/
  | encNumber (value : Int) (leadingZero : Bool)
  /-- APPLY_COLON (R162) -/
  | applyColon (f : Frame) (colon : Bool)
  /-- ENC_TIME (R163) -/
  | encTime (m s : Int)
  /-- ENC_TEXT (R164) -/
  | encText (t : List Char)
deriving DecidableEq, Repr

end Sys2Proof
end

