-- ==== Sys2Proof/Machine/State.lean ====
section
/-! DEFINITION. The state of the block (10_state.md), its value after power-up (70_reset_and_hazards.md R260), and the
reasons a step can stop. -/

namespace Sys2Proof.Machine

/-- The two lines (10_state.md R28). -/
inductive Line where
  | clk
  | dio
deriving DecidableEq, Repr

/-- A line's configuration (10_state.md R28). -/
inductive LineCfg where
  | unconfigured
  | pullUpIO
deriving DecidableEq, Repr

/-- The four kinds of micro-action (40_bus_transport.md R100). `sample` is Sample(DIO). -/
inductive MicroAction where
  | drive (l : Line) (v : Level)
  | wait
  | sample
  | configPullUp (l : Line)
deriving DecidableEq, Repr

/-- The condition codes 0..3 (60_exceptions.md R231). -/
inductive Cond where
  | ok
  | uninitIgnored
  | uninitError
  | outOfRange
deriving DecidableEq, Repr

/-- The result of the last completed operation (10_state.md R29, R32). -/
structure Result where
  cond     : Cond
  acks     : List Bool
  nackSeen : Bool
deriving DecidableEq, Repr

/-- The registers that can hold no value, by name: what a fault on reading one says. -/
inductive Reg where
  | clkPin | dioPin | brightness | power | colon | dioOut
deriving DecidableEq, Repr

/-- The transport primitives that have a line precondition (40_bus_transport.md R106, R107, R108). -/
inductive Prim where
  | start
  | stop
  | writeByte
deriving DecidableEq, Repr

/-- The faults. -/
inductive Fault where
  /-- A read of a register that holds no value, which the spec states to be a fault (10_state.md R20: "A model must make a
  read of a `none` register a fault, never a value"; 70_reset_and_hazards.md R260; 93_implementation_defined.md, "Registers
  before INIT"). Raised by a micro-action (CLK_PIN, DIO_PIN, DIO_OUT) or by CLEAR, SHOW_NUMBER, SHOW_TIME, SHOW_RAW and
  SHOW_TEXT (POWER, BRIGHTNESS, COLON), in states that no run of requests from power-up reaches. Safe: the machine stops
  where the spec gives no value. -/
  | noValue (r : Reg)
  /-- A Drive of a line that is not configured (40_bus_transport.md R101, R102: "A model faults it if reached"). Raised
  by `drive` micro-actions. Safe. -/
  | unconfiguredLine (l : Line)
  /-- A transport primitive reached while its line precondition does not hold (40_bus_transport.md R113: "must give a
  precondition violation the fault outcome"). Raised at the call of a BUS or INTERNAL instruction, or of an operation
  that would begin with START, in a state that only a direct call of a primitive can lead to. Safe. -/
  | precondition (p : Prim)
deriving DecidableEq, Repr

/-- The refusals. -/
inductive Refusal where
  /-- An instruction without a meaning in this model. Raised by no arm: every instruction has its meaning. Safe. -/
  | notModelled (mnemonic : String)
  /-- A request with a reserved op-select code 0x8..0xF (30_encoding.md R79). Raised by RESERVED_REQ. Safe. -/
  | reservedCode (code : BitVec 4)
  /-- A request or a direct call whose operands are not of the types its rule gives (30_encoding.md R79, R78). Raised by
  the decoder. Safe. -/
  | mistypedOperand
  /-- INIT with `clk = dio` (43_session_ops.md R192, 60_exceptions.md R236). Raised by INIT. Safe. -/
  | samePins
  /-- A transaction whose first byte the block never emits, so that no command has it (30_encoding.md R77). Raised by
  the decoder. Safe. -/
  | notBusCommand
  /-- A transaction with a number of bytes its first byte's class does not have (30_encoding.md R76, R77). Raised by the
  decoder. Safe. -/
  | transactionLength
deriving DecidableEq, Repr

/-- The state. The first thirteen fields are the record of 10_state.md R20, and `none` in one of them is that record's
"holds no value"; the last four are the model's own (log 10, 6, 5, 8). -/
structure State where
  /-- CLK_PIN (R22) -/
  clkPin      : Option PinId
  /-- DIO_PIN (R23) -/
  dioPin      : Option PinId
  /-- BRIGHTNESS (R24) -/
  brightness  : Option (Fin 8)
  /-- POWER (R25) -/
  power       : Option Bool
  /-- COLON (R26) -/
  colon       : Option Bool
  /-- INITIALIZED (R27) -/
  initialized : Bool
  /-- CLK_CFG (R28) -/
  clkCfg      : LineCfg
  /-- DIO_CFG (R28) -/
  dioCfg      : LineCfg
  /-- CLK_OUT (R28) -/
  clkOut      : Option Level
  /-- DIO_OUT (R28) -/
  dioOut      : Option Level
  /-- QUEUE (R30): the micro-actions still to perform -/
  queue       : List MicroAction
  /-- ACK_LOG (R31) -/
  ackLog      : List Bool
  /-- RESULT (R32) -/
  result      : Option Result
  /-- whether QUEUE belongs to a host operation, R30's "operation in progress" (log 10) -/
  opActive    : Bool
  /-- the request port (R29) with what the host will present, the word now presented first (log 6) -/
  port        : List PortWord
  /-- how many DIO samples the environment has answered: what the next free draw is applied to (log 5) -/
  peerDraw    : Nat
  /-- the encoder's output lanes after a direct call of an encoder function (log 8) -/
  encOut      : List Byte
deriving DecidableEq, Repr

/-- The block after power-up (70_reset_and_hazards.md R260); the model's own fields as log 10, 6, 5 and 8 say. -/
def State.reset : State where
  clkPin := none
  dioPin := none
  brightness := none
  power := none
  colon := none
  initialized := false
  clkCfg := .unconfigured
  dioCfg := .unconfigured
  clkOut := none
  dioOut := none
  queue := []
  ackLog := []
  result := none
  opActive := false
  port := []
  peerDraw := 0
  encOut := []

/-- The status outputs (10_state.md R35). -/
structure Status where
  brightness  : Option (Fin 8)
  power       : Option Bool
  colon       : Option Bool
  initialized : Bool
  clkPin      : Option PinId
  dioPin      : Option PinId
deriving DecidableEq, Repr

end Sys2Proof.Machine
end

