-- ==== Sys2Proof/WellFormed.lean ====
section
/-! DEFINITION. Which terms of Instr are instructions the spec has. The types of Syntax.lean already give every operand
its range; two conditions are left. -/

namespace Sys2Proof

/-- Well-formed: INIT names two different pins (43_session_ops.md R192: `clk = dio` is refused as a malformed request,
60_exceptions.md R236), and a reserved request code is one of 0x8..0xF (30_encoding.md R79). -/
def Instr.wellFormed : Instr → Bool
  | .init clk dio => decide (clk ≠ dio)
  | .reservedReq code => code.msb
  | .setBrightness _ _ | .clear | .showNumber _ _ | .showTime _ _ | .showRaw _ _ _ _ | .showText _ | .setColon _
  | .cmdDataAuto | .cmdDataFixed | .cmdAddr _ _ | .cmdCtrl _ _
  | .start | .stop | .writeByte _ | .cmdData _ | .cmdAddrData _ _ | .cmdCtrlTx _ _ | .render _ _ _
  | .encDigit _ | .encChar _ | .encNumber _ _ | .applyColon _ _ | .encTime _ _ | .encText _ => true

/-- The instructions a request with an op-select code can carry: those the host can reach (30_encoding.md R81,
92_eei_decisions.md D35). -/
def Instr.isRequest : Instr → Bool
  | .init _ _ | .setBrightness _ _ | .clear | .showNumber _ _ | .showTime _ _ | .showRaw _ _ _ _ | .showText _
  | .setColon _ | .reservedReq _ => true
  | .cmdDataAuto | .cmdDataFixed | .cmdAddr _ _ | .cmdCtrl _ _
  | .start | .stop | .writeByte _ | .cmdData _ | .cmdAddrData _ _ | .cmdCtrlTx _ _ | .render _ _ _
  | .encDigit _ | .encChar _ | .encNumber _ _ | .applyColon _ _ | .encTime _ _ | .encText _ => false

end Sys2Proof
end

