-- ==== Sys2Proof/Decode.lean ====
section
/-! DEFINITION. Decoding what is presented to the block: total, refusing by name; the encoder; and the words of
spec/opcode_table.json as port words. -/

namespace Sys2Proof

open Sys2Proof.Machine (Refusal)

/-! ### Requests (30_encoding.md R78, R79) -/

/-- The operands of a request by its op-select code (30_encoding.md R78). Codes 0x8..0xF are reserved, whatever their
operands (R79); a request whose operands are not of the types of R78 is refused (R79). -/
def decodeReq (code : BitVec 4) (ops : List Operand) : Except Refusal Instr :=
  match code.toNat with
  | 0 => match ops with
    | [.pin clk, .pin dio] => .ok (.init clk dio)
    | _ => .error .mistypedOperand
  | 1 => match ops with
    | [.int level, .bool enabled] => .ok (.setBrightness level enabled)
    | _ => .error .mistypedOperand
  | 2 => match ops with
    | [] => .ok .clear
    | _ => .error .mistypedOperand
  | 3 => match ops with
    | [.int value, .bool leadingZero] => .ok (.showNumber value leadingZero)
    | _ => .error .mistypedOperand
  | 4 => match ops with
    | [.int minutes, .int seconds] => .ok (.showTime minutes seconds)
    | _ => .error .mistypedOperand
  | 5 => match ops with
    | [.int b0, .int b1, .int b2, .int b3] => .ok (.showRaw b0 b1 b2 b3)
    | _ => .error .mistypedOperand
  | 6 => match ops with
    | [.text t] => .ok (.showText t)
    | _ => .error .mistypedOperand
  | 7 => match ops with
    | [.bool c] => .ok (.setColon c)
    | _ => .error .mistypedOperand
  | _ => .ok (.reservedReq code)

/-! ### Transactions (30_encoding.md R71 to R77) -/

/-- The commands a first byte can name (30_encoding.md R71): the instruction of a one-byte transaction, or what the data
byte makes of a two-byte one. -/
inductive FirstByte where
  | one (i : Instr)
  | two (a : BitVec 2)
deriving DecidableEq, Repr

/-- The class of a first byte: 0x40, 0x44, 0xC0..0xC3 and 0x80..0x8F, and nothing else (30_encoding.md R71 to R74,
R77). -/
def firstByte (b : Byte) : Option FirstByte :=
  if b = 0x40 then some (.one .cmdDataAuto)
  else if b = 0x44 then some (.one .cmdDataFixed)
  else if b.extractLsb' 2 6 = 0x30 then some (.two (b.extractLsb' 0 2))
  else if b.extractLsb' 4 4 = 0x8 then some (.one (.cmdCtrl (b.getLsbD 3) (b.extractLsb' 0 3)))
  else none

/-- A transaction by its bytes: the first byte fixes its length (30_encoding.md R76); any other is refused (R77). -/
def decodeBus (bytes : List Byte) : Except Refusal Instr :=
  match bytes with
  | [] => .error .transactionLength
  | b :: rest =>
    match firstByte b, rest with
    | none, _ => .error .notBusCommand
    | some (.one i), [] => .ok i
    | some (.two a), [dd] => .ok (.cmdAddr a dd)
    | some _, _ => .error .transactionLength

/-! ### Direct calls (log 7) -/

/-- A direct call by the name of its row and the operands of its rule. -/
def decodeCall (sub : Sub) (ops : List Operand) : Except Refusal Instr :=
  match sub with
  | .start => match ops with
    | [] => .ok .start
    | _ => .error .mistypedOperand
  | .stop => match ops with
    | [] => .ok .stop
    | _ => .error .mistypedOperand
  | .writeByte => match ops with
    | [.byte b] => .ok (.writeByte b)
    | _ => .error .mistypedOperand
  | .cmdData => match ops with
    | [.mode m] => .ok (.cmdData m)
    | _ => .error .mistypedOperand
  | .cmdAddrData => match ops with
    | [.int a, .byte d] => .ok (.cmdAddrData a d)
    | _ => .error .mistypedOperand
  | .cmdCtrlTx => match ops with
    | [.bool e, .int br] => .ok (.cmdCtrlTx e br)
    | _ => .error .mistypedOperand
  | .render => match ops with
    | [.frame f, .bool e, .int br] => .ok (.render f e br)
    | _ => .error .mistypedOperand
  | .encDigit => match ops with
    | [.int d] => .ok (.encDigit d)
    | _ => .error .mistypedOperand
  | .encChar => match ops with
    | [.char c] => .ok (.encChar c)
    | _ => .error .mistypedOperand
  | .encNumber => match ops with
    | [.int value, .bool leadingZero] => .ok (.encNumber value leadingZero)
    | _ => .error .mistypedOperand
  | .applyColon => match ops with
    | [.frame f, .bool colon] => .ok (.applyColon f colon)
    | _ => .error .mistypedOperand
  | .encTime => match ops with
    | [.int m, .int s] => .ok (.encTime m s)
    | _ => .error .mistypedOperand
  | .encText => match ops with
    | [.text t] => .ok (.encText t)
    | _ => .error .mistypedOperand

/-- The instruction a presented word stands for, or the refusal it meets. -/
def decode (w : PortWord) : Except Refusal Instr :=
  match w with
  | .req code ops => decodeReq code ops
  | .bus bytes => decodeBus bytes
  | .call sub ops => decodeCall sub ops

/-! ### The encoder -/

/-- The word of an instruction: the codes of 30_encoding.md R78 with their operands in the order of that table, the
command bytes of R72 to R74, and the direct calls. -/
def encode (i : Instr) : PortWord :=
  match i with
  | .init clk dio => .req 0x0 [.pin clk, .pin dio]
  | .setBrightness level enabled => .req 0x1 [.int level, .bool enabled]
  | .clear => .req 0x2 []
  | .showNumber value leadingZero => .req 0x3 [.int value, .bool leadingZero]
  | .showTime minutes seconds => .req 0x4 [.int minutes, .int seconds]
  | .showRaw b0 b1 b2 b3 => .req 0x5 [.int b0, .int b1, .int b2, .int b3]
  | .showText text => .req 0x6 [.text text]
  | .setColon c => .req 0x7 [.bool c]
  | .reservedReq code => .req code []
  | .cmdDataAuto => .bus [0x40]
  | .cmdDataFixed => .bus [0x44]
  | .cmdAddr a dd => .bus [0b110000#6 ++ a, dd]
  | .cmdCtrl e b => .bus [0b1000#4 ++ BitVec.ofBool e ++ b]
  | .start => .call .start []
  | .stop => .call .stop []
  | .writeByte b => .call .writeByte [.byte b]
  | .cmdData mode => .call .cmdData [.mode mode]
  | .cmdAddrData a d => .call .cmdAddrData [.int a, .byte d]
  | .cmdCtrlTx e br => .call .cmdCtrlTx [.bool e, .int br]
  | .render frame e br => .call .render [.frame frame, .bool e, .int br]
  | .encDigit d => .call .encDigit [.int d]
  | .encChar c => .call .encChar [.char c]
  | .encNumber value leadingZero => .call .encNumber [.int value, .bool leadingZero]
  | .applyColon f colon => .call .applyColon [.frame f, .bool colon]
  | .encTime m s => .call .encTime [.int m, .int s]
  | .encText t => .call .encText [.text t]

/-! ### The opcode table's words (log 11) -/

/-- The operands an op-select code has when the table's word gives none: zero integers, false flags, the empty text, and
for INIT, whose PinId is an abstract type with no zero, the two pins P0 and P1 of the spec's own programs
(95_test_vectors.md P1). -/
def zeroOperands (code : Nat) : List Operand :=
  match code with
  | 0 => [.pin (programPin 0), .pin (programPin 1)]
  | 1 => [.int 0, .bool false]
  | 3 => [.int 0, .bool false]
  | 4 => [.int 0, .int 0]
  | 5 => [.int 0, .int 0, .int 0, .int 0]
  | 6 => [.text []]
  | 7 => [.bool false]
  | _ => []

/-- The port word of the bits `w`, `nbits` of them, numbered as the opcode table numbers them. A first byte 0x00..0x0F is
an op-select code (REQ rows); any other is the first byte of a transaction (BUS rows: bits 7..6 are never 00,
30_encoding.md R71), whose second byte, if its class has one, is bits 15..8. Rows with no bits have no word. -/
def tableWord (nbits w : Nat) : Option PortWord :=
  let v := w % 2 ^ nbits
  let b := v % 256
  if nbits = 0 then none
  else if v < 16 then some (.req (BitVec.ofNat 4 v) (zeroOperands v))
  else if b / 64 = 3 ∨ 256 ≤ v then some (.bus [BitVec.ofNat 8 b, BitVec.ofNat 8 (v / 256)])
  else some (.bus [BitVec.ofNat 8 b])

/-- The instruction the decoder reads from the bits `w` of a row of the opcode table. -/
def decodeTableWord (nbits w : Nat) : Option Instr :=
  match tableWord nbits w with
  | none => none
  | some pw =>
    match decode pw with
    | .ok i => some i
    | .error _ => none

end Sys2Proof
end

