-- ==== Sys2Proof/Machine/Flags.lean ====
section
/-! DEFINITION. The flags and codes the block computes: the ACK flag (10_state.md R31), `nackSeen` (R32), the condition
code numbers and the code of an operation before INIT (60_exceptions.md R231, R233). -/

namespace Sys2Proof.Machine

/-- The DIO bus level, `DIO_OUT AND NOT peer_pull` (10_state.md R28, 90_conflicts.md C5). -/
def busLevel (out : Level) (pull : Bool) : Level := out && !pull

/-- The ACK flag of a sampled level: a low level is a positive acknowledgment (10_state.md R31, 40_bus_transport.md
R104). -/
def ackOf (lvl : Level) : Bool := !lvl

/-- `nackSeen = (false ∈ acks)` (10_state.md R32). -/
def nackSeen (acks : List Bool) : Bool := acks.contains false

/-- The numeric value of a condition code (60_exceptions.md R231). -/
def Cond.code : Cond → Nat
  | .ok => 0
  | .uninitIgnored => 1
  | .uninitError => 2
  | .outOfRange => 3

/-- The code an operation before INIT completes with, by UNINIT_POLICY (43_session_ops.md R190 step 4). -/
def uninitCond (p : Params) : Cond :=
  match p.uninitPolicy with
  | .noop => .uninitIgnored
  | .fault => .uninitError

end Sys2Proof.Machine
end

