-- ==== Sys2Proof/Machine/Operands.lean ====
section
/-! DEFINITION. Operand forms: clamping and masking of integers (00_scope.md R7, 20_memory.md R51, 30_encoding.md R75),
the command bytes (R72 to R74), and the ranges of strict mode (43_session_ops.md R201). -/

namespace Sys2Proof.Machine

/-- `clamp(v, lo, hi) = min(max(v, lo), hi)` (00_scope.md R7). -/
def clamp (v lo hi : Int) : Int := min (max v lo) hi

/-- `v & (2^k - 1)` on an integer: the non-negative remainder `v mod 2^k`, in `k` bits (00_scope.md R7). -/
def maskBits (k : Nat) (v : Int) : BitVec k := BitVec.ofInt k v

/-- An address operand, `a & 0x03` (20_memory.md R51). -/
def maskAddress (a : Int) : BitVec 2 := maskBits 2 a

/-- A brightness operand of the command layer, `br & 0x07` (30_encoding.md R75). -/
def maskBrightness (br : Int) : BitVec 3 := maskBits 3 br

/-- A raw segment byte operand, `b & 0xFF` (43_session_ops.md R197, 92_eei_decisions.md D26). -/
def maskByte (b : Int) : Byte := maskBits 8 b

/-- SET_BRIGHTNESS's level, `clamp(level, 0, 7)` (43_session_ops.md R193). -/
def clampLevel (level : Int) : Fin 8 := Fin.ofNat 8 (clamp level 0 7).toNat

/-- The value of INIT_BRIGHTNESS (00_scope.md R6). -/
def initLevel (p : Params) : Fin 8 :=
  match p.initBrightness with
  | .three => 3
  | .four => 4

/-- The data command byte (30_encoding.md R72). -/
def dataCommand : AddrMode → Byte
  | .auto => 0x40
  | .fixed => 0x44

/-- The address command byte, `0xC0 | a` with `a` in 2 bits (30_encoding.md R73). -/
def addressCommand (a : BitVec 2) : Byte := 0xC0 ||| a.setWidth 8

/-- The display control byte, `0x80 | (e << 3) | b` with `b` in 3 bits (30_encoding.md R74, 90_conflicts.md C1). -/
def controlCommand (e : Bool) (b : BitVec 3) : Byte := 0x80 ||| (if e then 0x08 else 0x00) ||| b.setWidth 8

/-- `lo <= v <= hi`, for the range checks. -/
def inRange (v lo hi : Int) : Bool := decide (lo ≤ v) && decide (v ≤ hi)

/-- The range check of SET_BRIGHTNESS (43_session_ops.md R201). -/
def levelInRange (level : Int) : Bool := inRange level 0 7

/-- The range check of SHOW_NUMBER (43_session_ops.md R201). -/
def numberInRange (value : Int) : Bool := inRange value (-999) 9999

/-- The range check of SHOW_TIME (43_session_ops.md R201). -/
def timeInRange (minutes seconds : Int) : Bool := inRange minutes 0 99 && inRange seconds 0 59

/-- The range check of SHOW_RAW (43_session_ops.md R201). -/
def rawInRange (b0 b1 b2 b3 : Int) : Bool :=
  inRange b0 0 255 && inRange b1 0 255 && inRange b2 0 255 && inRange b3 0 255

end Sys2Proof.Machine
end

