-- ==== Sys2Proof/Machine/Ops.lean ====
section
/-! DEFINITION. The shared operations: reading a register that may hold no value, the lines, acceptance and completion
of an operation (43_session_ops.md R190), direct calls, and the sequencer's micro-actions (40_bus_transport.md R101 to
R105). The block takes no trap (60_exceptions.md R230, R239): completion with a condition code is what stands in the
place of an exception entry. -/

namespace Sys2Proof.Machine

/-- The outcome of a step or of an instruction. -/
abbrev Out := Host.Outcome State Fault Refusal

/-- Read a register that may hold no value: a read of no value is a fault, because the spec says so (10_state.md R20: "A
model must make a read of a `none` register a fault, never a value"; 70_reset_and_hazards.md R260). -/
def need {α : Type} (r : Reg) (o : Option α) (k : α → Out) : Out :=
  match o with
  | none => .fault (.noValue r)
  | some a => k a

/-- Busy: QUEUE is not empty (10_state.md R30). -/
def State.isBusy (s : State) : Bool := !s.queue.isEmpty

/-- The status outputs (10_state.md R35). -/
def State.status (s : State) : Status where
  brightness := s.brightness
  power := s.power
  colon := s.colon
  initialized := s.initialized
  clkPin := s.clkPin
  dioPin := s.dioPin

/-! ### Lines -/

/-- The pin register of a line (10_state.md R22, R23). -/
def State.linePin (s : State) : Line → Option PinId
  | .clk => s.clkPin
  | .dio => s.dioPin

/-- The name of a line's pin register. -/
def pinReg : Line → Reg
  | .clk => .clkPin
  | .dio => .dioPin

/-- The configuration of a line (10_state.md R28). -/
def State.lineCfg (s : State) : Line → LineCfg
  | .clk => s.clkCfg
  | .dio => s.dioCfg

/-- The output level of a line (10_state.md R28). -/
def State.lineOut (s : State) : Line → Option Level
  | .clk => s.clkOut
  | .dio => s.dioOut

/-- Write the output level of a line. -/
def State.setLineOut (s : State) (l : Line) (v : Option Level) : State :=
  match l with
  | .clk => { s with clkOut := v }
  | .dio => { s with dioOut := v }

/-- Write the configuration of a line. -/
def State.setLineCfg (s : State) (l : Line) (c : LineCfg) : State :=
  match l with
  | .clk => { s with clkCfg := c }
  | .dio => { s with dioCfg := c }

/-- Both lines driven high: START's precondition (40_bus_transport.md R106). -/
def State.linesHigh (s : State) : Bool := s.clkOut == some true && s.dioOut == some true

/-- CLK driven low: the precondition of STOP and WRITE_BYTE (40_bus_transport.md R107, R108). -/
def State.clkLow (s : State) : Bool := s.clkOut == some false

/-- The line precondition of a transport primitive (70_reset_and_hazards.md R269). -/
def State.ready (s : State) : Prim → Bool
  | .start => s.linesHigh
  | .stop => s.clkLow
  | .writeByte => s.clkLow

/-! ### Acceptance and completion -/

/-- `ACK_LOG <- []` (43_session_ops.md R190 step 3). -/
def State.clearAcks (s : State) : State := { s with ackLog := [] }

/-- COMPLETE(c): write RESULT, once per operation (10_state.md R32, 43_session_ops.md R190). -/
def State.complete (s : State) (c : Cond) : State :=
  { s with result := some { cond := c, acks := s.ackLog, nackSeen := nackSeen s.ackLog }, opActive := false }

/-- Steps 7 and 8 of acceptance: queue the operation's micro-actions, or complete at once if it has none
(43_session_ops.md R190). -/
def State.emit (s : State) (q : List MicroAction) : State :=
  match q with
  | [] => s.complete .ok
  | a :: rest => { s with queue := a :: rest, opActive := true }

/-- `emit` for a list that begins with START, whose precondition must hold (40_bus_transport.md R106, R113; log 17). -/
def emitFramed (s : State) (q : List MicroAction) : Out :=
  if s.ready .start then .next (s.emit q) else .fault (.precondition .start)

/-- Acceptance of an operation other than INIT, from step 2 of 43_session_ops.md R190 on: a busy block holds the
request (nothing changes, log 22); ACK_LOG is cleared; an uninitialized block completes with code 1 or 2; strict range
with an operand out of range completes with code 3; else the operation's own effect. -/
def accept (p : Params) (operandsInRange : Bool) (body : State → Out) (s : State) : Out :=
  if s.isBusy then .next s
  else if !s.initialized then .next (s.clearAcks.complete (uninitCond p))
  else if !operandsInRange && p.strictRange then .next (s.clearAcks.complete .outOfRange)
  else body s.clearAcks

/-- A direct call of a transport primitive or a command: a busy block holds it; a primitive whose precondition does not
hold is a fault (40_bus_transport.md R113); else its micro-actions are queued. It is no host operation, so it clears no
ACK_LOG and writes no RESULT (log 7). -/
def callDirect (first : Prim) (q : List MicroAction) (s : State) : Out :=
  if s.isBusy then .next s
  else if s.ready first then .next { s with queue := q, opActive := false }
  else .fault (.precondition first)

/-- A direct call of an encoder function: its result appears on the encoder's output lanes and nothing else changes
(42_segment_encoder.md: "It writes no state and raises no condition"; log 8). It depends on no QUEUE; presented to a busy
block the word waits at the port before it is executed (`holdWhileBusy`). -/
def State.encResult (s : State) (bytes : List Byte) : State := { s with encOut := bytes }

/-! ### The sequencer -/

/-- Drive(L, v) (40_bus_transport.md R101, R102): reads the line's pin, faults on an unconfigured line, sets L_OUT. -/
def performDrive (l : Line) (v : Level) (s : State) : Out :=
  need (pinReg l) (s.linePin l) fun _ =>
    match s.lineCfg l with
    | .unconfigured => .fault (.unconfiguredLine l)
    | .pullUpIO => .next (s.setLineOut l (some v))

/-- What a sample of level `lvl` writes: `ACK_LOG <- ACK_LOG ++ [lvl = 0]` (40_bus_transport.md R104), and the draw
counter moves on (log 5). -/
def State.recordSample (s : State) (lvl : Level) : State :=
  { s with ackLog := s.ackLog ++ [ackOf lvl], peerDraw := s.peerDraw + 1 }

/-- Sample(DIO) (40_bus_transport.md R104): the bus level is DIO_OUT and not the peer's pull, a free draw (D31),
indexed by the count of samples alone (log 5). -/
def performSample (s : State) : Out :=
  need .dioPin s.dioPin fun _ =>
    need .dioOut s.dioOut fun out =>
      .next (s.recordSample (busLevel out (Config.peerPull s.peerDraw)))

/-- ConfigPullUp(L) (40_bus_transport.md R105): L_CFG becomes pullUpIO, and "the level after configuration holds no
value until the next Drive" (log 9). -/
def performConfigPullUp (l : Line) (s : State) : Out :=
  need (pinReg l) (s.linePin l) fun _ => .next ((s.setLineCfg l .pullUpIO).setLineOut l none)

/-- One micro-action. Wait() changes no state (40_bus_transport.md R103). -/
def perform (a : MicroAction) (s : State) : Out :=
  match a with
  | .drive l v => performDrive l v s
  | .wait => .next s
  | .sample => performSample s
  | .configPullUp l => performConfigPullUp l s

/-- When QUEUE becomes empty the operation in progress completes with code 0 (10_state.md R30, 43_session_ops.md
R190). -/
def State.settle (s : State) : State :=
  match s.queue with
  | [] => if s.opActive then s.complete .ok else s
  | _ :: _ => s

/-- Apply a function to the state of a next outcome. -/
def mapNext (o : Out) (f : State → State) : Out :=
  match o with
  | .next s => .next (f s)
  | .fault r => .fault r
  | .refused r => .refused r

/-- The sequencer's step (10_state.md R30): remove the head of QUEUE, perform it, complete if QUEUE is now empty. An idle
block waits (70_reset_and_hazards.md R261; log 21). -/
def advance (s : State) : Out :=
  match s.queue with
  | [] => .next s
  | a :: rest => mapNext (perform a { s with queue := rest }) State.settle

/-- What a busy block does with a presented instruction whose execution answers `o`: it refuses what is refused before
any hold (43_session_ops.md R190 steps 1 and 2, 60_exceptions.md R238), else it holds the word and goes on with
QUEUE. DESIGN CHOICE (log 8): a direct call of an encoder function is held like every other word, so it too is executed,
and writes encOut, only once the block is idle; the spec, whose encoder has no port (R81), is silent. -/
def holdWhileBusy (o : Out) (s : State) : Out :=
  match o with
  | .refused r => .refused r
  | .next _ => advance s
  | .fault _ => advance s

/-- Take the presented word from the port (10_state.md R29, valid and ready). -/
def State.takeWord (s : State) (rest : List PortWord) : State := { s with port := rest }

end Sys2Proof.Machine
end

