-- ==== Sys2Proof/Machine/Transport.lean ====
section
/-! DEFINITION. The bus transport (40_bus_transport.md): the micro-action lists of START, STOP and WRITE_BYTE, and the
meanings of their rows. -/

namespace Sys2Proof.Machine

/-- `Tx(L, v) = [Drive(L, v), Wait()]` (40_bus_transport.md R100). -/
def tx (l : Line) (v : Level) : List MicroAction := [.drive l v, .wait]

/-- START (40_bus_transport.md R106). -/
def startSeq : List MicroAction := tx .dio false ++ tx .clk false

/-- STOP (40_bus_transport.md R107). -/
def stopSeq : List MicroAction := tx .dio false ++ tx .clk true ++ tx .dio true

/-- One bit of a byte: CLK low, DIO to the bit, CLK high (40_bus_transport.md R108). -/
def bitSeq (v : Level) : List MicroAction := tx .clk false ++ tx .dio v ++ tx .clk true

/-- The bits of a byte in the order they go on the wire, least significant first (20_memory.md R53). -/
def wireBits (b : Byte) : List Level :=
  [b.getLsbD 0, b.getLsbD 1, b.getLsbD 2, b.getLsbD 3, b.getLsbD 4, b.getLsbD 5, b.getLsbD 6, b.getLsbD 7]

/-- The ACK slot: the ninth clock, DIO released, one sample, CLK low again (40_bus_transport.md R108). -/
def ackSeq : List MicroAction := tx .clk false ++ tx .dio true ++ tx .clk true ++ [.sample] ++ tx .clk false

/-- WRITE_BYTE(b) (40_bus_transport.md R108). -/
def writeByteSeq (b : Byte) : List MicroAction := (wireBits b).flatMap bitSeq ++ ackSeq

/-- START, called directly (R106, R113). -/
def execStart (s : State) : Out := callDirect .start startSeq s

/-- STOP, called directly (R107, R113). -/
def execStop (s : State) : Out := callDirect .stop stopSeq s

/-- WRITE_BYTE, called directly (R108, R113). -/
def execWriteByte (b : Byte) (s : State) : Out := callDirect .writeByte (writeByteSeq b) s

end Sys2Proof.Machine
end

