-- ==== Sys2Proof/Machine/Command.lean ====
section
/-! DEFINITION. The command layer (41_command_layer.md): transactions, the three commands, RENDER, and the meanings of
the INTERNAL command rows and of the BUS rows. -/

namespace Sys2Proof.Machine

/-- A transaction: START, the bytes, STOP (41_command_layer.md R130, 30_encoding.md R76). -/
def transaction (bytes : List Byte) : List MicroAction := startSeq ++ bytes.flatMap writeByteSeq ++ stopSeq

/-- CMD_DATA(mode) (41_command_layer.md R131). -/
def cmdDataSeq (m : AddrMode) : List MicroAction := transaction [dataCommand m]

/-- CMD_ADDR_DATA with the address already masked (41_command_layer.md R132). -/
def cmdAddrSeq (a : BitVec 2) (d : Byte) : List MicroAction := transaction [addressCommand a, d]

/-- CMD_ADDR_DATA(a, d) (41_command_layer.md R132). -/
def cmdAddrDataSeq (a : Int) (d : Byte) : List MicroAction := cmdAddrSeq (maskAddress a) d

/-- CMD_CTRL with the brightness already masked (41_command_layer.md R133). -/
def cmdCtrlMaskedSeq (e : Bool) (b : BitVec 3) : List MicroAction := transaction [controlCommand e b]

/-- CMD_CTRL(e, br) (41_command_layer.md R133). -/
def cmdCtrlSeq (e : Bool) (br : Int) : List MicroAction := cmdCtrlMaskedSeq e (maskBrightness br)

/-- RENDER(frame, e, br) (41_command_layer.md R134). -/
def renderSeq (f : Frame) (e : Bool) (br : Int) : List MicroAction :=
  cmdDataSeq .auto ++ cmdAddrDataSeq 0 f.f0 ++ cmdAddrDataSeq 1 f.f1 ++ cmdAddrDataSeq 2 f.f2 ++ cmdAddrDataSeq 3 f.f3
    ++ cmdCtrlSeq e br

/-! ### The INTERNAL command rows, called directly (log 7) -/

/-- CMD_DATA (R131). -/
def execCmdData (m : AddrMode) (s : State) : Out := callDirect .start (cmdDataSeq m) s

/-- CMD_ADDR_DATA (R132). -/
def execCmdAddrData (a : Int) (d : Byte) (s : State) : Out := callDirect .start (cmdAddrDataSeq a d) s

/-- CMD_CTRL_TX, the rule's CMD_CTRL(e, br) (R133). -/
def execCmdCtrlTx (e : Bool) (br : Int) (s : State) : Out := callDirect .start (cmdCtrlSeq e br) s

/-- RENDER (R134). -/
def execRender (f : Frame) (e : Bool) (br : Int) (s : State) : Out := callDirect .start (renderSeq f e br) s

/-! ### The BUS rows: the transaction its bytes name (log 7) -/

/-- CMD_DATA_AUTO, `S 40 P` (R131). -/
def execCmdDataAuto (s : State) : Out := callDirect .start (cmdDataSeq .auto) s

/-- CMD_DATA_FIXED, `S 44 P` (R131). -/
def execCmdDataFixed (s : State) : Out := callDirect .start (cmdDataSeq .fixed) s

/-- CMD_ADDR, `S Cx dd P` (R132). -/
def execCmdAddr (a : BitVec 2) (dd : Byte) (s : State) : Out := callDirect .start (cmdAddrSeq a dd) s

/-- CMD_CTRL, `S 8x P` (R133). -/
def execCmdCtrl (e : Bool) (b : BitVec 3) (s : State) : Out := callDirect .start (cmdCtrlMaskedSeq e b) s

end Sys2Proof.Machine
end

