-- ==== Sys2Proof/Machine/Glyph.lean ====
section
/-! DEFINITION. The glyph tables (42_segment_encoder.md R150 to R154). -/

namespace Sys2Proof.Machine

/-- DIGIT_GLYPH (42_segment_encoder.md R150, 90_conflicts.md C2; log 12). -/
def digitGlyphs : List Byte := [0x3F, 0x06, 0x5B, 0x4F, 0x66, 0x6D, 0x7D, 0x07, 0x7F, 0x6F]

/-- HEX_GLYPH, for 10 to 15 (42_segment_encoder.md R151; log 12). -/
def hexGlyphs : List Byte := [0x77, 0x7C, 0x39, 0x5E, 0x79, 0x71]

/-- MINUS (42_segment_encoder.md R152). -/
def minusGlyph : Byte := 0x40

/-- CHAR_GLYPH: space, hyphen, underscore (42_segment_encoder.md R153; log 12). -/
def charGlyph (c : Char) : Option Byte :=
  if c = ' ' then some 0x00
  else if c = '-' then some 0x40
  else if c = '_' then some 0x08
  else none

/-- LETTER_GLYPH, from the parameter: defined on ASCII letters only, bit 7 always 0 (42_segment_encoder.md R154;
log 18). -/
def letterGlyph (p : Params) (c : Char) : Option Byte :=
  if 65 ≤ c.toNat ∧ c.toNat ≤ 90 then (p.letters (c.toNat - 65)).map fun g => g.1.setWidth 8
  else if 97 ≤ c.toNat ∧ c.toNat ≤ 122 then (p.letters (c.toNat - 97)).map fun g => g.2.setWidth 8
  else none

/-- The spec's default LETTER_GLYPH (42_segment_encoder.md R154), A to Z; K, M, Q, V, W, X and Z are outside it. No step
uses it: it is the value a test assumes for the parameter. -/
def defaultLetterTable : List (Option (BitVec 7)) :=
  [some 0x77, some 0x7C, some 0x39, some 0x5E, some 0x79, some 0x71, some 0x3D, some 0x76, some 0x30, some 0x1E,
   none, some 0x38, none, some 0x54, some 0x5C, some 0x73, none, some 0x50, some 0x6D, some 0x78, some 0x3E,
   none, none, none, some 0x6E, none]

/-- The default LETTER_GLYPH as a parameter value: both cases map to the same glyph (42_segment_encoder.md R154). -/
def defaultLetters (i : Nat) : Option (BitVec 7 × BitVec 7) :=
  (defaultLetterTable.getD i none).map fun g => (g, g)

end Sys2Proof.Machine
end

