-- ==== Sys2Proof/Machine/Encoder.lean ====
section
/-! DEFINITION. The 7-segment encoder (42_segment_encoder.md): pure functions of their operands and the parameters, and
the meanings of the FUNC rows. -/

namespace Sys2Proof

/-- The four lanes as a list, position 0 first. -/
def Frame.toList (f : Frame) : List Byte := [f.f0, f.f1, f.f2, f.f3]

/-- The frame whose position `i` holds `g i`. -/
def Frame.ofFn (g : Nat → Byte) : Frame := ⟨g 0, g 1, g 2, g 3⟩

/-- The byte at position `i`. -/
def Frame.get (f : Frame) (i : Nat) : Byte := f.toList.getD i 0x00

/-- `f[i] <- b`. -/
def Frame.set (f : Frame) (i : Nat) (b : Byte) : Frame := Frame.ofFn fun j => if j = i then b else f.get j

/-- The first `k` positions set to 0x00. -/
def Frame.blank (f : Frame) (k : Nat) : Frame := Frame.ofFn fun j => if j < k then 0x00 else f.get j

/-- The all-blank frame. -/
def Frame.zero : Frame := ⟨0x00, 0x00, 0x00, 0x00⟩

end Sys2Proof

namespace Sys2Proof.Machine

/-- ENC_DIGIT (42_segment_encoder.md R156). -/
def encDigit (p : Params) (d : Int) : Byte :=
  if 0 ≤ d ∧ d ≤ 9 then digitGlyphs.getD d.toNat 0x00
  else if 10 ≤ d ∧ d ≤ 15 ∧ p.hexDigits = true then hexGlyphs.getD (d.toNat - 10) 0x00
  else 0x00

/-- ENC_CHAR (42_segment_encoder.md R157). -/
def encChar (p : Params) (c : Char) : Byte :=
  match charGlyph c with
  | some g => g
  | none => (letterGlyph p c).getD 0x00

/-- The four decimal digits of `a`, thousands first (42_segment_encoder.md R158, R159). -/
def decimalDigits (a : Nat) : List Nat := [a / 1000 % 10, a / 100 % 10, a / 10 % 10, a % 10]

/-- How many positions zero suppression blanks: the zeros at the front of positions 0 to 2, none with `leadingZero`
(42_segment_encoder.md R160). -/
def blankCount (digits : List Nat) (leadingZero : Bool) : Nat :=
  if leadingZero then 0 else ((digits.take 3).takeWhile (· == 0)).length

/-- Where the sign of a negative value goes, after `k` blanked positions (42_segment_encoder.md R161,
90_conflicts.md C3). -/
def signPosition (k : Nat) : Nat := if 0 < k then k - 1 else 0

/-- ENC_NUMBER (42_segment_encoder.md R158). -/
def encNumber (p : Params) (value : Int) (leadingZero : Bool) : Frame :=
  let v := clamp value (-999) 9999
  let d := decimalDigits v.natAbs
  let k := blankCount d leadingZero
  let f := (Frame.ofFn fun i => encDigit p (d.getD i 0 : Nat)).blank k
  if v < 0 then f.set (signPosition k) minusGlyph else f

/-- APPLY_COLON (42_segment_encoder.md R162). -/
def applyColon (f : Frame) (colon : Bool) : Frame :=
  if colon then { f with f1 := f.f1 ||| 0x80 } else f

/-- ENC_TIME (42_segment_encoder.md R163). -/
def encTime (p : Params) (m s : Int) : Frame :=
  let m' := clamp m 0 99
  let s' := clamp s 0 59
  ⟨encDigit p (m' / 10), encDigit p (m' % 10) ||| 0x80, encDigit p (s' / 10), encDigit p (s' % 10)⟩

/-- One character of ENC_TEXT: ASCII digits through ENC_DIGIT, anything else through ENC_CHAR
(42_segment_encoder.md R164). -/
def encTextChar (p : Params) (c : Char) : Byte :=
  if 48 ≤ c.toNat ∧ c.toNat ≤ 57 then encDigit p (c.toNat - 48 : Nat) else encChar p c

/-- The text cut or padded with spaces to 4 characters (42_segment_encoder.md R164, 92_eei_decisions.md D27). -/
def padText (t : List Char) : List Char := t.take 4 ++ List.replicate (4 - min 4 t.length) ' '

/-- ENC_TEXT (42_segment_encoder.md R164). -/
def encText (p : Params) (t : List Char) : Frame :=
  Frame.ofFn fun i => encTextChar p ((padText t).getD i ' ')

/-! ### The FUNC rows (log 7, 8) -/

/-- ENC_DIGIT, called directly (R156). -/
def execEncDigit (d : Int) (s : State) : Out := .next (s.encResult [encDigit Config.params d])

/-- ENC_CHAR, called directly (R157). -/
def execEncChar (c : Char) (s : State) : Out := .next (s.encResult [encChar Config.params c])

/-- ENC_NUMBER, called directly (R158). -/
def execEncNumber (value : Int) (leadingZero : Bool) (s : State) : Out :=
  .next (s.encResult (encNumber Config.params value leadingZero).toList)

/-- APPLY_COLON, called directly (R162). -/
def execApplyColon (f : Frame) (colon : Bool) (s : State) : Out := .next (s.encResult (applyColon f colon).toList)

/-- ENC_TIME, called directly (R163). -/
def execEncTime (m sec : Int) (s : State) : Out := .next (s.encResult (encTime Config.params m sec).toList)

/-- ENC_TEXT, called directly (R164). -/
def execEncText (t : List Char) (s : State) : Out := .next (s.encResult (encText Config.params t).toList)

end Sys2Proof.Machine
end

