-- ==== Sys2Proof/Machine/Session.lean ====
section
/-! DEFINITION. The session operations (43_session_ops.md R192 to R199) and the reserved request codes (30_encoding.md
R79). Each is written over the parameters; the row's meaning takes the block's own. -/

namespace Sys2Proof.Machine

/-- The tail of a render: read POWER and BRIGHTNESS and queue RENDER (41_command_layer.md R134). -/
def emitRender (f : Frame) (s : State) : Out :=
  need .power s.power fun e =>
    need .brightness s.brightness fun br =>
      emitFramed s (renderSeq f e (br.val : Int))

/-- The tail of SHOW_NUMBER and SHOW_TEXT: read COLON, apply it to the frame and render (43_session_ops.md R195, R198). -/
def emitColoned (f : Frame) (s : State) : Out :=
  need .colon s.colon fun c => emitRender (applyColon f c) s

/-- The register updates of INIT (43_session_ops.md R192). -/
def State.initSession (s : State) (p : Params) (clk dio : PinId) : State :=
  { s with
    clkPin := some clk
    dioPin := some dio
    brightness := some (initLevel p)
    power := some true
    colon := some false
    initialized := true }

/-- INIT's micro-actions (43_session_ops.md R192, 92_eei_decisions.md D7, D10). -/
def initSeq (p : Params) : List MicroAction :=
  [.configPullUp .clk, .configPullUp .dio] ++ tx .clk true ++ tx .dio true
    ++ renderSeq Frame.zero true ((initLevel p).val : Int)

/-- INIT (43_session_ops.md R192): refused when the pins are the same, before any hold; exempt from steps 4 and 5. -/
def opInit (p : Params) (clk dio : PinId) (s : State) : Out :=
  if clk = dio then .refused .samePins
  else if s.isBusy then .next s
  else .next ((s.clearAcks.initSession p clk dio).emit (initSeq p))

/-- The register updates of SET_BRIGHTNESS (43_session_ops.md R193). -/
def State.setLevel (s : State) (level : Fin 8) (enabled : Bool) : State :=
  { s with brightness := some level, power := some enabled }

/-- SET_BRIGHTNESS's own effect: the register updates, then CMD_CTRL alone (43_session_ops.md R193). -/
def emitLevel (level : Fin 8) (enabled : Bool) (s : State) : Out :=
  emitFramed (s.setLevel level enabled) (cmdCtrlSeq enabled (level.val : Int))

/-- SET_BRIGHTNESS (43_session_ops.md R193). -/
def opSetBrightness (p : Params) (level : Int) (enabled : Bool) (s : State) : Out :=
  accept p (levelInRange level) (emitLevel (clampLevel level) enabled) s

/-- CLEAR (43_session_ops.md R194): the colon flag is not applied. -/
def opClear (p : Params) (s : State) : Out := accept p true (emitRender Frame.zero) s

/-- SHOW_NUMBER (43_session_ops.md R195). -/
def opShowNumber (p : Params) (value : Int) (leadingZero : Bool) (s : State) : Out :=
  accept p (numberInRange value) (emitColoned (encNumber p value leadingZero)) s

/-- SHOW_TIME (43_session_ops.md R196): COLON is not read. -/
def opShowTime (p : Params) (minutes seconds : Int) (s : State) : Out :=
  accept p (timeInRange minutes seconds) (emitRender (encTime p minutes seconds)) s

/-- SHOW_RAW's frame, each operand masked to 8 bits (43_session_ops.md R197). -/
def rawFrame (b0 b1 b2 b3 : Int) : Frame := ⟨maskByte b0, maskByte b1, maskByte b2, maskByte b3⟩

/-- SHOW_RAW (43_session_ops.md R197): the colon flag is not applied. -/
def opShowRaw (p : Params) (b0 b1 b2 b3 : Int) (s : State) : Out :=
  accept p (rawInRange b0 b1 b2 b3) (emitRender (rawFrame b0 b1 b2 b3)) s

/-- SHOW_TEXT (43_session_ops.md R198): no range condition. -/
def opShowText (p : Params) (text : List Char) (s : State) : Out :=
  accept p true (emitColoned (encText p text)) s

/-- SET_COLON's register update (43_session_ops.md R199). -/
def State.setColonFlag (s : State) (c : Bool) : State := { s with colon := some c }

/-- SET_COLON's own effect: no bus traffic (43_session_ops.md R199). -/
def emitColonFlag (c : Bool) (s : State) : Out := .next ((s.setColonFlag c).emit [])

/-- SET_COLON (43_session_ops.md R199): writes COLON and completes at acceptance. -/
def opSetColon (p : Params) (c : Bool) (s : State) : Out := accept p true (emitColonFlag c) s

/-! ### The REQ rows -/

/-- INIT, code 0x0 (R192). -/
def execInit (clk dio : PinId) (s : State) : Out := opInit Config.params clk dio s

/-- SET_BRIGHTNESS, code 0x1 (R193). -/
def execSetBrightness (level : Int) (enabled : Bool) (s : State) : Out := opSetBrightness Config.params level enabled s

/-- CLEAR, code 0x2 (R194). -/
def execClear (s : State) : Out := opClear Config.params s

/-- SHOW_NUMBER, code 0x3 (R195). -/
def execShowNumber (value : Int) (leadingZero : Bool) (s : State) : Out :=
  opShowNumber Config.params value leadingZero s

/-- SHOW_TIME, code 0x4 (R196). -/
def execShowTime (minutes seconds : Int) (s : State) : Out := opShowTime Config.params minutes seconds s

/-- SHOW_RAW, code 0x5 (R197). -/
def execShowRaw (b0 b1 b2 b3 : Int) (s : State) : Out := opShowRaw Config.params b0 b1 b2 b3 s

/-- SHOW_TEXT, code 0x6 (R198). -/
def execShowText (text : List Char) (s : State) : Out := opShowText Config.params text s

/-- SET_COLON, code 0x7 (R199). -/
def execSetColon (c : Bool) (s : State) : Out := opSetColon Config.params c s

/-- RESERVED_REQ, codes 0x8..0xF: refused in every state, before any hold (30_encoding.md R79, 60_exceptions.md
R236). -/
def execReservedReq (code : BitVec 4) (_ : State) : Out := .refused (.reservedCode code)

end Sys2Proof.Machine
end

