-- ==== Sys2Proof/Machine/Dispatch.lean ====
section
/-! DEFINITION. One arm per constructor of Instr: the meaning each row of the opcode table has. -/

namespace Sys2Proof.Machine

/-- The meaning of an instruction. -/
def exec (i : Instr) (s : State) : Host.Outcome State Fault Refusal :=
  match i with
  -- REQ
  | .init clk dio => Sys2Proof.Machine.execInit clk dio s
  | .setBrightness level enabled => Sys2Proof.Machine.execSetBrightness level enabled s
  | .clear => Sys2Proof.Machine.execClear s
  | .showNumber value leadingZero => Sys2Proof.Machine.execShowNumber value leadingZero s
  | .showTime minutes seconds => Sys2Proof.Machine.execShowTime minutes seconds s
  | .showRaw b0 b1 b2 b3 => Sys2Proof.Machine.execShowRaw b0 b1 b2 b3 s
  | .showText text => Sys2Proof.Machine.execShowText text s
  | .setColon c => Sys2Proof.Machine.execSetColon c s
  | .reservedReq code => Sys2Proof.Machine.execReservedReq code s
  -- BUS
  | .cmdDataAuto => Sys2Proof.Machine.execCmdDataAuto s
  | .cmdDataFixed => Sys2Proof.Machine.execCmdDataFixed s
  | .cmdAddr a dd => Sys2Proof.Machine.execCmdAddr a dd s
  | .cmdCtrl e b => Sys2Proof.Machine.execCmdCtrl e b s
  -- INTERNAL
  | .start => Sys2Proof.Machine.execStart s
  | .stop => Sys2Proof.Machine.execStop s
  | .writeByte b => Sys2Proof.Machine.execWriteByte b s
  | .cmdData mode => Sys2Proof.Machine.execCmdData mode s
  | .cmdAddrData a d => Sys2Proof.Machine.execCmdAddrData a d s
  | .cmdCtrlTx e br => Sys2Proof.Machine.execCmdCtrlTx e br s
  | .render frame e br => Sys2Proof.Machine.execRender frame e br s
  -- FUNC
  | .encDigit d => Sys2Proof.Machine.execEncDigit d s
  | .encChar c => Sys2Proof.Machine.execEncChar c s
  | .encNumber value leadingZero => Sys2Proof.Machine.execEncNumber value leadingZero s
  | .applyColon f colon => Sys2Proof.Machine.execApplyColon f colon s
  | .encTime m sec => Sys2Proof.Machine.execEncTime m sec s
  | .encText t => Sys2Proof.Machine.execEncText t s

end Sys2Proof.Machine
end

