-- ==== Sys2Proof/Machine/Step.lean ====
section
/-! DEFINITION. One step: the word presented at the request port, if any, and the sequencer (10_state.md R30,
43_session_ops.md R190). -/

namespace Sys2Proof.Machine

/-- One step. A word that does not decode is refused (R190 step 1). While QUEUE is not empty a presented word is refused
or held, and the sequencer performs the head of QUEUE (R190 step 2, R30). When the block is idle it takes the presented
word and executes it; with nothing presented it waits (log 6, 21). -/
def step (s : State) : Host.Outcome State Fault Refusal :=
  match s.port with
  | [] => advance s
  | w :: rest =>
    match decode w with
    | .error r => .refused r
    | .ok i => if s.isBusy then holdWhileBusy (exec i s) s else exec i (s.takeWord rest)

/-- The state with the opcode table's word presented at the request port and the block idle, so that the next step runs
it (log 6, 11). -/
def State.withFetchWord (s : State) (nbits w : Nat) : State :=
  match tableWord nbits w with
  | none => s
  | some pw => { s with port := pw :: s.port, queue := [], opActive := false }

end Sys2Proof.Machine
end

