-- ==== Sys2Proof/Machine/Wire.lean ====
section
/-! DEFINITION. The wire as a receiver reads it (40_bus_transport.md R112), pin-write counts (R110) and the line
discipline (R111). No step uses this file: it is what statements about the wire are written in. -/

namespace Sys2Proof.Machine

/-- The levels of the two lines, (CLK, DIO). -/
abbrev Pair := Level × Level

/-- The pair after one pin write. -/
def Line.write (l : Line) (v : Level) (p : Pair) : Pair :=
  match l with
  | .clk => (v, p.2)
  | .dio => (p.1, v)

/-- The trace of a micro-action list from a pair: the (CLK, DIO) outputs after each pin write (R112). -/
def pinTrace : List MicroAction → Pair → List Pair
  | [], _ => []
  | .drive l v :: rest, p => l.write v p :: pinTrace rest (l.write v p)
  | .wait :: rest, p => pinTrace rest p
  | .sample :: rest, p => pinTrace rest p
  | .configPullUp _ :: rest, p => pinTrace rest p

/-- The pair a micro-action list leaves (the postconditions of R106, R107, R108). -/
def finalPair : List MicroAction → Pair → Pair
  | [], p => p
  | .drive l v :: rest, p => finalPair rest (l.write v p)
  | .wait :: rest, p => finalPair rest p
  | .sample :: rest, p => finalPair rest p
  | .configPullUp _ :: rest, p => finalPair rest p

/-- A pin write, one Drive action (00_scope.md R11). -/
def MicroAction.isPinWrite : MicroAction → Bool
  | .drive _ _ => true
  | .wait => false
  | .sample => false
  | .configPullUp _ => false

/-- A sample. -/
def MicroAction.isSample : MicroAction → Bool
  | .drive _ _ => false
  | .wait => false
  | .sample => true
  | .configPullUp _ => false

/-- How many pin writes a list makes (R110). -/
def pinWrites (q : List MicroAction) : Nat := q.countP MicroAction.isPinWrite

/-- How many samples a list takes (R110). -/
def samples (q : List MicroAction) : Nat := q.countP MicroAction.isSample

/-- The least time a list can take, pin writes × T_STEP in microseconds (R110, 70_reset_and_hazards.md R270). -/
def minMicros (q : List MicroAction) : Nat := pinWrites q * Config.tStepMicros

/-- Every pin write in the list is followed at once by a Wait (R100, 70_reset_and_hazards.md R264). -/
def writesAreDelayed : List MicroAction → Bool
  | [] => true
  | .drive _ _ :: rest =>
    match rest with
    | .wait :: _ => writesAreDelayed rest
    | _ => false
  | .wait :: rest => writesAreDelayed rest
  | .sample :: rest => writesAreDelayed rest
  | .configPullUp _ :: rest => writesAreDelayed rest

/-- The changes of DIO while CLK is high along a trace, from a pair (R111): each as the new DIO level. -/
def highChanges : List Pair → Pair → List Level
  | [], _ => []
  | q :: rest, p => if p.1 && q.1 && (p.2 != q.2) then q.2 :: highChanges rest q else highChanges rest q

/-! ### The receiver (R112) -/

/-- A receiver: the last pair seen; inside a transaction, the complete bytes and the bits of the byte under way, oldest
first; and the transactions already ended, oldest first. -/
structure Receiver where
  last   : Pair
  inside : Bool
  bytes  : List Byte
  bits   : List Bool
  done   : List (List Byte)
deriving DecidableEq, Repr

/-- A receiver that has seen only the pair `p`. -/
def Receiver.fresh (p : Pair) : Receiver := ⟨p, false, [], [], []⟩

/-- The byte of eight bits, the first one least significant (20_memory.md R53). -/
def byteOfBits (bits : List Bool) : Byte := BitVec.ofNat 8 (bits.foldr (fun b n => b.toNat + 2 * n) 0)

/-- What a receiver makes of the next pair (R112): DIO falling while CLK is high is START, DIO rising while CLK is high
is STOP, and inside a transaction each rising edge of CLK carries a bit, the ninth being the ACK slot that ends the
byte. -/
def Receiver.next (r : Receiver) (q : Pair) : Receiver :=
  if r.last.1 && q.1 then
    if r.last.2 && !q.2 then { r with last := q, inside := true, bytes := [], bits := [] }
    else if !r.last.2 && q.2 && r.inside then
      { r with last := q, inside := false, bytes := [], bits := [], done := r.done ++ [r.bytes] }
    else { r with last := q }
  else if !r.last.1 && q.1 && r.inside then
    if r.bits.length < 8 then { r with last := q, bits := r.bits ++ [q.2] }
    else { r with last := q, bytes := r.bytes ++ [byteOfBits r.bits], bits := [] }
  else { r with last := q }

/-- The transactions a trace from the pair `p` shows a receiver (R112). -/
def readTrace (p : Pair) (trace : List Pair) : List (List Byte) := (trace.foldl Receiver.next (Receiver.fresh p)).done

/-- The transactions a micro-action list puts on the wire from idle-high lines. -/
def wireTransactions (q : List MicroAction) : List (List Byte) := readTrace (true, true) (pinTrace q (true, true))

/-- What the peer pulls in the ACK slot of one byte: after the falling edge that opens the slot, after the release, and
from there to the falling edge that closes it (R112's assumption about the peer). -/
structure SlotPulls where
  opening : Bool
  release : Bool
  high    : Bool
deriving DecidableEq, Repr

/-- The bus pairs of WRITE_BYTE(b) from a pair, with the peer's pulls in its ACK slot: outside the slot the bus level is
DIO_OUT (R112, 10_state.md R28). -/
def busTraceByte (b : Byte) (k : SlotPulls) (p : Pair) : List Pair :=
  pinTrace ((wireBits b).flatMap bitSeq) p
    ++ [(false, busLevel (b.getLsbD 7) k.opening), (false, busLevel true k.release), (true, busLevel true k.high),
        (false, true)]

/-- The bus pairs of several bytes, each with its pulls; WRITE_BYTE leaves CLK low and DIO released (R108). -/
def busTraceBytes : List (Byte × SlotPulls) → Pair → List Pair
  | [], _ => []
  | (b, k) :: rest, p => busTraceByte b k p ++ busTraceBytes rest (false, true)

/-- The bus pairs of a whole transaction of at least one byte, from idle-high lines (R112). -/
def busTraceTransaction (bytes : List (Byte × SlotPulls)) : List Pair :=
  pinTrace startSeq (true, true) ++ busTraceBytes bytes (false, false) ++ pinTrace stopSeq (false, true)

end Sys2Proof.Machine
end

