-- ==== Sys2Proof/Safety.lean ====
section
/-! DEFINITION. What a safe state is: the session invariant, which holds of every state that requests alone can reach
from power-up, and the views that statements about runs use. -/

namespace Sys2Proof.Safety

open Sys2Proof.Machine

/-- The line state (10_state.md R28). -/
structure Lines where
  clkCfg : LineCfg
  dioCfg : LineCfg
  clkOut : Option Level
  dioOut : Option Level
deriving DecidableEq, Repr

/-- The line state of a state. -/
def linesOf (s : State) : Lines := ⟨s.clkCfg, s.dioCfg, s.clkOut, s.dioOut⟩

/-- Both lines configured and driven high: what STOP leaves (40_bus_transport.md R107). -/
def Lines.idleHigh : Lines := ⟨.pullUpIO, .pullUpIO, some true, some true⟩

/-- What one micro-action makes of the lines, or `none` where it would fault on them. -/
def Lines.after (L : Lines) : MicroAction → Option Lines
  | .drive .clk v => if L.clkCfg = .pullUpIO then some { L with clkOut := some v } else none
  | .drive .dio v => if L.dioCfg = .pullUpIO then some { L with dioOut := some v } else none
  | .wait => some L
  | .sample => if L.dioOut.isSome then some L else none
  | .configPullUp .clk => some { L with clkCfg := .pullUpIO, clkOut := none }
  | .configPullUp .dio => some { L with dioCfg := .pullUpIO, dioOut := none }

/-- What a micro-action list makes of the lines, or `none` where it would fault on them. -/
def Lines.afterAll (L : Lines) : List MicroAction → Option Lines
  | [] => some L
  | a :: rest =>
    match L.after a with
    | none => none
    | some L' => L'.afterAll rest

/-- A word that carries an op-select code: what the host can present (30_encoding.md R81, 92_eei_decisions.md D35). -/
def isRequestWord : PortWord → Bool
  | .req _ _ => true
  | .bus _ => false
  | .call _ _ => false

/-- The session registers before INIT: no value, and the lines not configured (70_reset_and_hazards.md R260). -/
structure Untouched (s : State) : Prop where
  clkPin : s.clkPin = none
  dioPin : s.dioPin = none
  brightness : s.brightness = none
  power : s.power = none
  colon : s.colon = none
  lines : linesOf s = ⟨.unconfigured, .unconfigured, none, none⟩
  queue : s.queue = []

/-- The session registers after INIT: two different pins, every register with a value, and a QUEUE that runs on the lines
without a fault and leaves them idle-high. -/
structure Live (s : State) : Prop where
  clkPin : s.clkPin.isSome = true
  dioPin : s.dioPin.isSome = true
  pinsDiffer : s.clkPin ≠ s.dioPin
  brightness : s.brightness.isSome = true
  power : s.power.isSome = true
  colon : s.colon.isSome = true
  lines : (linesOf s).afterAll s.queue = some Lines.idleHigh

/-- The session invariant: only requests are presented, an operation is in progress exactly while QUEUE is not empty, and
the registers are those of a block before or after INIT. -/
structure SessionInv (s : State) : Prop where
  requests : s.port.all isRequestWord = true
  active : s.opActive = s.isBusy
  uninit : s.initialized = false → Untouched s
  live : s.initialized = true → Live s

/-- The state without what the peer's answers reach: ACK_LOG, RESULT and the draw counter. -/
def blind (s : State) : State := { s with ackLog := [], result := none, peerDraw := 0 }

/-- An outcome with its next state seen through `blind`. -/
def blindOut (o : Out) : Out := mapNext o blind

/-- A step that does not fault. -/
def NoFault (o : Out) : Prop := ∀ r, o ≠ .fault r

/-- No word the block would refuse is presented (43_session_ops.md R190 step 1). -/
def portAccepted (s : State) : Bool :=
  match s.port with
  | [] => true
  | w :: _ =>
    match decode w with
    | .error _ => false
    | .ok i =>
      match exec i s with
      | .refused _ => false
      | .next _ => true
      | .fault _ => true

/-- An idle, initialized block whose registers hold the values `e` (POWER), `br` (BRIGHTNESS) and `c` (COLON), with both
lines idle-high: what every state between two operations after INIT is (40_bus_transport.md R107, 43_session_ops.md
R192). -/
structure ReadyWith (s : State) (e : Bool) (br : Fin 8) (c : Bool) : Prop where
  idle : s.queue = []
  initialized : s.initialized = true
  power : s.power = some e
  brightness : s.brightness = some br
  colon : s.colon = some c
  clkHigh : s.clkOut = some true
  dioHigh : s.dioOut = some true

/-- The types of operands in 30_encoding.md R78. -/
inductive OperandType where
  | pinId
  | int
  | bool
  | text
deriving DecidableEq, Repr

/-- The type of an operand value, if it is one of those of a request. -/
def operandType : Operand → Option OperandType
  | .pin _ => some .pinId
  | .int _ => some .int
  | .bool _ => some .bool
  | .text _ => some .text
  | .char _ => none
  | .byte _ => none
  | .frame _ => none
  | .mode _ => none
  | .other => none

/-- The operand types of each op-select code, the table of 30_encoding.md R78. -/
def requestTypes : Nat → List OperandType
  | 0 => [.pinId, .pinId]
  | 1 => [.int, .bool]
  | 2 => []
  | 3 => [.int, .bool]
  | 4 => [.int, .int]
  | 5 => [.int, .int, .int, .int]
  | 6 => [.text]
  | 7 => [.bool]
  | _ => []

/-- The operations that render (41_command_layer.md R134). -/
def isRender : Instr → Bool
  | .init _ _ | .clear | .showNumber _ _ | .showTime _ _ | .showRaw _ _ _ _ | .showText _ => true
  | .setBrightness _ _ | .setColon _ | .reservedReq _
  | .cmdDataAuto | .cmdDataFixed | .cmdAddr _ _ | .cmdCtrl _ _
  | .start | .stop | .writeByte _ | .cmdData _ | .cmdAddrData _ _ | .cmdCtrlTx _ _ | .render _ _ _
  | .encDigit _ | .encChar _ | .encNumber _ _ | .applyColon _ _ | .encTime _ _ | .encText _ => false

/-- The operations that read COLON (10_state.md R26). -/
def readsColon : Instr → Bool
  | .showNumber _ _ | .showText _ => true
  | .init _ _ | .clear | .showTime _ _ | .showRaw _ _ _ _
  | .setBrightness _ _ | .setColon _ | .reservedReq _
  | .cmdDataAuto | .cmdDataFixed | .cmdAddr _ _ | .cmdCtrl _ _
  | .start | .stop | .writeByte _ | .cmdData _ | .cmdAddrData _ _ | .cmdCtrlTx _ _ | .render _ _ _
  | .encDigit _ | .encChar _ | .encNumber _ _ | .applyColon _ _ | .encTime _ _ | .encText _ => false

/-- Every operand in the range of 43_session_ops.md R201, which gives one to four operations only. -/
def operandsInRange : Instr → Bool
  | .setBrightness level _ => levelInRange level
  | .showNumber value _ => numberInRange value
  | .showTime minutes seconds => timeInRange minutes seconds
  | .showRaw b0 b1 b2 b3 => rawInRange b0 b1 b2 b3
  | .init _ _ | .clear | .showText _ | .setColon _ | .reservedReq _
  | .cmdDataAuto | .cmdDataFixed | .cmdAddr _ _ | .cmdCtrl _ _
  | .start | .stop | .writeByte _ | .cmdData _ | .cmdAddrData _ _ | .cmdCtrlTx _ _ | .render _ _ _
  | .encDigit _ | .encChar _ | .encNumber _ _ | .applyColon _ _ | .encTime _ _ | .encText _ => true

/-- INIT, the operation exempt from the uninitialized check (43_session_ops.md R192). -/
def isInit : Instr → Bool
  | .init _ _ => true
  | .clear | .showNumber _ _ | .showTime _ _ | .showRaw _ _ _ _ | .showText _
  | .setBrightness _ _ | .setColon _ | .reservedReq _
  | .cmdDataAuto | .cmdDataFixed | .cmdAddr _ _ | .cmdCtrl _ _
  | .start | .stop | .writeByte _ | .cmdData _ | .cmdAddrData _ _ | .cmdCtrlTx _ _ | .render _ _ _
  | .encDigit _ | .encChar _ | .encNumber _ _ | .applyColon _ _ | .encTime _ _ | .encText _ => false

/-- The direct calls that put something on the wire, by the primitive they begin with: the BUS and INTERNAL rows. -/
def firstPrim : Instr → Option Prim
  | .start | .cmdDataAuto | .cmdDataFixed | .cmdAddr _ _ | .cmdCtrl _ _
  | .cmdData _ | .cmdAddrData _ _ | .cmdCtrlTx _ _ | .render _ _ _ => some .start
  | .stop => some .stop
  | .writeByte _ => some .writeByte
  | .init _ _ | .clear | .showNumber _ _ | .showTime _ _ | .showRaw _ _ _ _ | .showText _
  | .setBrightness _ _ | .setColon _ | .reservedReq _
  | .encDigit _ | .encChar _ | .encNumber _ _ | .applyColon _ _ | .encTime _ _ | .encText _ => none

end Sys2Proof.Safety
end

