-- ==== Sys2Proof/Certificates/Slice0/Obligations.lean ====
section
/-! DEFINITION. The statements for the provers. Each is a Prop; its docstring names the rule it formalises. -/

open Sys2Proof
open Sys2Proof.Machine
open Sys2Proof.Safety

/-! ### Power-up, the step, and requests -/

/-- R260: the block after power-up, every register of the rule's table. -/
def Obligations.ResetIsThePowerUpState : Prop :=
  State.reset.initialized = false ∧ State.reset.clkPin = none ∧ State.reset.dioPin = none ∧
  State.reset.brightness = none ∧ State.reset.power = none ∧ State.reset.colon = none ∧
  State.reset.clkCfg = .unconfigured ∧ State.reset.dioCfg = .unconfigured ∧
  State.reset.clkOut = none ∧ State.reset.dioOut = none ∧
  State.reset.queue = [] ∧ State.reset.ackLog = [] ∧ State.reset.result = none

/-- R260, R20: the session invariant holds after power-up. The invariant also speaks of the model's own port (log 6) and
opActive (log 10), whose values after power-up, nothing presented and no operation in progress, are the model's choice. -/
def Obligations.ResetMeetsTheSessionInvariant : Prop := SessionInv State.reset

/-- R190, R30: a step runs the decoded word. An idle block takes the presented word and its step is exec of the decoded
instruction; a busy block refuses what exec refuses, and otherwise holds the word (an encoder call too, log 8) and performs the head of QUEUE; a word
that does not decode is refused; with nothing presented the sequencer goes on alone, and an idle block waits (R261). -/
def Obligations.StepRunsTheDecodedInstruction : Prop :=
  ∀ (s : State),
    (s.port = [] → step s = advance s) ∧
    (s.port = [] → s.queue = [] → step s = .next s) ∧
    (∀ w rest i, s.port = w :: rest → decode w = .ok i → s.queue = [] →
      step s = exec i { s with port := rest }) ∧
    (∀ w rest i r, s.port = w :: rest → decode w = .ok i → s.queue ≠ [] → exec i s = .refused r →
      step s = .refused r) ∧
    (∀ w rest i, s.port = w :: rest → decode w = .ok i → s.queue ≠ [] → (∀ r, exec i s ≠ .refused r) →
      step s = advance s) ∧
    (∀ w rest r, s.port = w :: rest → decode w = .error r → step s = .refused r)

/-- R79, R236: a request with a reserved code 0x8..0xF, a request whose operands are not of the types of R78, and an INIT
with clk = dio are refused whatever the state, busy or not; a request with a code 0x0..0x7 is refused by the decoder only
for its operand types. -/
def Obligations.MalformedRequestsAreRefused : Prop :=
  ∀ (code : BitVec 4) (ops : List Operand),
    (8 ≤ code.toNat → decode (.req code ops) = .ok (.reservedReq code)) ∧
    (∀ s : State, exec (.reservedReq code) s = .refused (.reservedCode code)) ∧
    (∀ (pin : PinId) (s : State), exec (.init pin pin) s = .refused .samePins) ∧
    (∀ (pin : PinId) (s : State) (rest : List PortWord), s.port = .req 0x0 [.pin pin, .pin pin] :: rest →
      step s = .refused .samePins) ∧
    (∀ (s : State) (rest : List PortWord), 8 ≤ code.toNat → s.port = .req code ops :: rest →
      step s = .refused (.reservedCode code)) ∧
    (∀ (s : State) (rest : List PortWord), code.toNat < 8 →
      ops.map operandType ≠ (requestTypes code.toNat).map some → s.port = .req code ops :: rest →
      step s = .refused .mistypedOperand) ∧
    (code.toNat < 8 → ops.map operandType = (requestTypes code.toNat).map some →
      ∃ i, decode (.req code ops) = .ok i ∧ encode i = .req code ops)

/-- R190 step 2, R238: a busy block holds every well-formed request and every direct call of a BUS or INTERNAL row (log 7):
its execution answers the unchanged state (log 22). -/
def Obligations.BusyBlockHolds : Prop :=
  ∀ (i : Instr) (s : State), i.wellFormed = true → s.queue ≠ [] →
    ((i.isRequest = true ∧ ∀ code, i ≠ .reservedReq code) ∨ (firstPrim i).isSome = true) → exec i s = .next s

/-- R233: an operation other than INIT on an uninitialized block completes at acceptance with code 1 or 2 by
UNINIT_POLICY, before any range check, whatever its operands, and touches no pin and no other register. opActive is log 10's. -/
def Obligations.UninitializedUseCompletesWithItsCode : Prop :=
  ∀ (i : Instr) (s : State), i.isRequest = true → (∀ code, i ≠ .reservedReq code) → isInit i = false →
    s.queue = [] → s.initialized = false →
    exec i s = .next { s with
      ackLog := []
      result := some { cond := if Config.uninitPolicy = .noop then .uninitIgnored else .uninitError
                       acks := [], nackSeen := false }
      opActive := false }

/-- R201, R190 step 5: with STRICT_RANGE an operation with an operand out of range completes with code 3 and no other
effect; over every value of the parameters. The last four clauses say that the rows' meanings are these operations at
the block's own parameters. opActive is log 10's. -/
def Obligations.StrictRangeCompletesWithOutOfRange : Prop :=
  (∀ (p : Params) (s : State), p.strictRange = true → s.queue = [] → s.initialized = true →
    let t : State := { s with
      ackLog := []
      result := some { cond := .outOfRange, acks := [], nackSeen := false }
      opActive := false }
    (∀ (level : Int) (en : Bool), ¬ (0 ≤ level ∧ level ≤ 7) → opSetBrightness p level en s = .next t) ∧
    (∀ (value : Int) (lz : Bool), ¬ (-999 ≤ value ∧ value ≤ 9999) → opShowNumber p value lz s = .next t) ∧
    (∀ m sec : Int, ¬ (0 ≤ m ∧ m ≤ 99 ∧ 0 ≤ sec ∧ sec ≤ 59) → opShowTime p m sec s = .next t) ∧
    (∀ b0 b1 b2 b3 : Int, ¬ (0 ≤ b0 ∧ b0 ≤ 255 ∧ 0 ≤ b1 ∧ b1 ≤ 255 ∧ 0 ≤ b2 ∧ b2 ≤ 255 ∧ 0 ≤ b3 ∧ b3 ≤ 255) →
      opShowRaw p b0 b1 b2 b3 s = .next t)) ∧
  (∀ level en s, exec (.setBrightness level en) s = opSetBrightness Config.params level en s) ∧
  (∀ value lz s, exec (.showNumber value lz) s = opShowNumber Config.params value lz s) ∧
  (∀ m sec s, exec (.showTime m sec) s = opShowTime Config.params m sec s) ∧
  (∀ b0 b1 b2 b3 s, exec (.showRaw b0 b1 b2 b3) s = opShowRaw Config.params b0 b1 b2 b3 s)

/-! ### The session operations complete -/

/-- R192: INIT on an idle block with two different pins: its register updates and its micro-action list, in every state,
initialized or not. opActive, here and in the statements below, is log 10's: QUEUE belongs to a host operation. -/
def Obligations.InitConfiguresAndClears : Prop :=
  ∀ (clk dio : PinId) (s : State), clk ≠ dio → s.queue = [] →
    exec (.init clk dio) s = .next { s with
      clkPin := some clk, dioPin := some dio
      brightness := some (if Config.initBrightness = .three then 3 else 4)
      power := some true, colon := some false, initialized := true
      ackLog := []
      queue := [.configPullUp .clk, .configPullUp .dio, .drive .clk true, .wait, .drive .dio true, .wait]
        ++ renderSeq ⟨0x00, 0x00, 0x00, 0x00⟩ true (if Config.initBrightness = .three then 3 else 4)
      opActive := true }

/-- R193: SET_BRIGHTNESS clamps the level, writes BRIGHTNESS and POWER and queues the control command alone. -/
def Obligations.SetBrightnessSendsTheControlCommand : Prop :=
  ∀ (level : Int) (enabled : Bool) (e : Bool) (br : Fin 8) (c : Bool) (s : State), ReadyWith s e br c →
    (Config.strictRange = true → 0 ≤ level ∧ level ≤ 7) →
    ∃ lv : Fin 8, (lv.val : Int) = min (max level 0) 7 ∧
      exec (.setBrightness level enabled) s = .next { s with
        brightness := some lv, power := some enabled
        ackLog := []
        queue := transaction [0x80 ||| (if enabled then 0x08 else 0x00) ||| BitVec.ofNat 8 lv.val]
        opActive := true }

/-- R194: CLEAR queues the render of the all-blank frame with POWER and BRIGHTNESS; COLON is not applied. -/
def Obligations.ClearRendersBlank : Prop :=
  ∀ (e : Bool) (br : Fin 8) (c : Bool) (s : State), ReadyWith s e br c →
    exec .clear s = .next { s with
      ackLog := []
      queue := renderSeq ⟨0x00, 0x00, 0x00, 0x00⟩ e (br.val : Int)
      opActive := true }

/-- R195: SHOW_NUMBER queues the render of ENC_NUMBER with the colon flag applied. -/
def Obligations.ShowNumberRendersTheNumber : Prop :=
  ∀ (value : Int) (lz : Bool) (e : Bool) (br : Fin 8) (c : Bool) (s : State), ReadyWith s e br c →
    (Config.strictRange = true → -999 ≤ value ∧ value ≤ 9999) →
    exec (.showNumber value lz) s = .next { s with
      ackLog := []
      queue := renderSeq (applyColon (encNumber Config.params value lz) c) e (br.val : Int)
      opActive := true }

/-- R196: SHOW_TIME queues the render of ENC_TIME; COLON is not read, so the same frame is sent whatever it holds. -/
def Obligations.ShowTimeRendersTheTime : Prop :=
  ∀ (m sec : Int) (e : Bool) (br : Fin 8) (s : State), s.queue = [] → s.initialized = true → s.power = some e →
    s.brightness = some br → s.clkOut = some true → s.dioOut = some true →
    (Config.strictRange = true → 0 ≤ m ∧ m ≤ 99 ∧ 0 ≤ sec ∧ sec ≤ 59) →
    exec (.showTime m sec) s = .next { s with
      ackLog := []
      queue := renderSeq (encTime Config.params m sec) e (br.val : Int)
      opActive := true }

/-- R197: SHOW_RAW queues the render of its four operands, each masked to 8 bits; COLON is not applied. -/
def Obligations.ShowRawRendersTheMaskedBytes : Prop :=
  ∀ (b0 b1 b2 b3 : Int) (e : Bool) (br : Fin 8) (c : Bool) (s : State), ReadyWith s e br c →
    (Config.strictRange = true →
      0 ≤ b0 ∧ b0 ≤ 255 ∧ 0 ≤ b1 ∧ b1 ≤ 255 ∧ 0 ≤ b2 ∧ b2 ≤ 255 ∧ 0 ≤ b3 ∧ b3 ≤ 255) →
    ∃ f : Frame,
      ((f.f0.toNat : Int) = b0 % 256 ∧ (f.f1.toNat : Int) = b1 % 256 ∧
        (f.f2.toNat : Int) = b2 % 256 ∧ (f.f3.toNat : Int) = b3 % 256) ∧
      exec (.showRaw b0 b1 b2 b3) s = .next { s with
        ackLog := []
        queue := renderSeq f e (br.val : Int)
        opActive := true }

/-- R198: SHOW_TEXT queues the render of ENC_TEXT with the colon flag applied; no range condition applies. -/
def Obligations.ShowTextRendersTheText : Prop :=
  ∀ (text : List Char) (e : Bool) (br : Fin 8) (c : Bool) (s : State), ReadyWith s e br c →
    exec (.showText text) s = .next { s with
      ackLog := []
      queue := renderSeq (applyColon (encText Config.params text) c) e (br.val : Int)
      opActive := true }

/-- R199: SET_COLON writes COLON and RESULT and completes at acceptance with code 0, no acks and no bus traffic. -/
def Obligations.SetColonCompletesAtAcceptance : Prop :=
  ∀ (c : Bool) (s : State), s.queue = [] → s.initialized = true →
    exec (.setColon c) s = .next { s with
      colon := some c
      ackLog := []
      result := some { cond := .ok, acks := [], nackSeen := false }
      opActive := false }

/-! ### Direct calls complete, or stop on a line precondition -/

/-- R106: START, called directly (log 7): its micro-actions when both lines are high, and its postcondition. -/
def Obligations.StartDrivesDioThenClkLow : Prop :=
  (∀ s : State, s.queue = [] → s.clkOut = some true → s.dioOut = some true →
    exec .start s = .next { s with
      queue := [.drive .dio false, .wait, .drive .clk false, .wait], opActive := false }) ∧
  pinTrace [.drive .dio false, .wait, .drive .clk false, .wait] (true, true) = [(true, false), (false, false)]

/-- R107: STOP, called directly (log 7): its micro-actions when CLK is low, and its postcondition, both lines idle-high. -/
def Obligations.StopLeavesBothLinesHigh : Prop :=
  (∀ s : State, s.queue = [] → s.clkOut = some false →
    exec .stop s = .next { s with
      queue := [.drive .dio false, .wait, .drive .clk true, .wait, .drive .dio true, .wait], opActive := false }) ∧
  (∀ d : Level, pinTrace [.drive .dio false, .wait, .drive .clk true, .wait, .drive .dio true, .wait] (false, d) =
    [(false, false), (true, false), (true, true)])

/-- R108, R53: WRITE_BYTE, called directly (log 7): eight bits, least significant first, each with its three transitions,
then the ACK slot with its one sample; CLK ends low and DIO released. -/
def Obligations.WriteByteSendsLeastSignificantFirst : Prop :=
  ∀ b : Byte,
    let q : List MicroAction :=
      (List.range 8).flatMap (fun i =>
        [.drive .clk false, .wait, .drive .dio (b.getLsbD i), .wait, .drive .clk true, .wait])
      ++ [.drive .clk false, .wait, .drive .dio true, .wait, .drive .clk true, .wait, .sample, .drive .clk false, .wait]
    (∀ s : State, s.queue = [] → s.clkOut = some false →
      exec (.writeByte b) s = .next { s with queue := q, opActive := false }) ∧
    (∀ d : Level, finalPair q (false, d) = (false, true))

/-- R131, R72: CMD_DATA(mode) and the BUS rows `S 40 P` and `S 44 P` queue one transaction of their byte (a direct call,
log 7). -/
def Obligations.DataCommandIsOneTransaction : Prop :=
  ∀ s : State, s.queue = [] → s.clkOut = some true → s.dioOut = some true →
    exec (.cmdData .auto) s = .next { s with queue := transaction [0x40], opActive := false } ∧
    exec (.cmdData .fixed) s = .next { s with queue := transaction [0x44], opActive := false } ∧
    exec .cmdDataAuto s = .next { s with queue := transaction [0x40], opActive := false } ∧
    exec .cmdDataFixed s = .next { s with queue := transaction [0x44], opActive := false }

/-- R132, R51: CMD_ADDR_DATA(a, d) wraps its address to 2 bits, for every integer, and sends `0xC0 | a` and then the data
byte unchanged; the BUS row `S Cx dd P` sends the same (direct calls, log 7). No address faults. -/
def Obligations.AddressCommandWrapsItsAddress : Prop :=
  ∀ (s : State) (d : Byte), s.queue = [] → s.clkOut = some true → s.dioOut = some true →
    (∀ a : Int, exec (.cmdAddrData a d) s = .next { s with
      queue := transaction [BitVec.ofNat 8 (0xC0 + (a % 4).toNat), d], opActive := false }) ∧
    (∀ a : BitVec 2, exec (.cmdAddr a d) s = .next { s with
      queue := transaction [BitVec.ofNat 8 (0xC0 + a.toNat), d], opActive := false })

/-- R133, R74: CMD_CTRL(e, br) masks the brightness to 3 bits and sends `0x80 | (e << 3) | br`; the BUS row `S 8x P` sends
the same (direct calls, log 7). It writes no session register. -/
def Obligations.ControlCommandCarriesPowerAndBrightness : Prop :=
  ∀ (s : State) (e : Bool), s.queue = [] → s.clkOut = some true → s.dioOut = some true →
    (∀ br : Int, exec (.cmdCtrlTx e br) s = .next { s with
      queue := transaction [BitVec.ofNat 8 (0x80 + (if e then 8 else 0) + (br % 8).toNat)], opActive := false }) ∧
    (∀ b : BitVec 3, exec (.cmdCtrl e b) s = .next { s with
      queue := transaction [BitVec.ofNat 8 (0x80 + (if e then 8 else 0) + b.toNat)], opActive := false })

/-- R134, R55: RENDER(frame, e, br), called directly (log 7), queues six transactions: the data command, addresses 0 to 3 with their bytes, the
control command. -/
def Obligations.RenderIsSixTransactions : Prop :=
  ∀ (s : State) (f : Frame) (e : Bool) (br : Int), s.queue = [] → s.clkOut = some true → s.dioOut = some true →
    exec (.render f e br) s = .next { s with
      queue := transaction [0x40] ++ transaction [0xC0, f.f0] ++ transaction [0xC1, f.f1] ++ transaction [0xC2, f.f2]
        ++ transaction [0xC3, f.f3]
        ++ transaction [BitVec.ofNat 8 (0x80 + (if e then 8 else 0) + (br % 8).toNat)]
      opActive := false }

/-- R113: a transport primitive or a command called directly (log 7) while its line precondition does not hold is a fault: START and every
command need both lines high, STOP and WRITE_BYTE need CLK low. -/
def Obligations.PreconditionViolationFaults : Prop :=
  ∀ (i : Instr) (s : State), s.queue = [] →
    (firstPrim i = some .start → ¬ (s.clkOut = some true ∧ s.dioOut = some true) →
      exec i s = .fault (.precondition .start)) ∧
    (firstPrim i = some .stop → s.clkOut ≠ some false → exec i s = .fault (.precondition .stop)) ∧
    (firstPrim i = some .writeByte → s.clkOut ≠ some false → exec i s = .fault (.precondition .writeByte))

/-! ### The encoder functions -/

/-- R81: a direct call of an encoder function completes in every state with the function's value on the encoder's output
lanes (encOut, the model's own, log 8) and changes nothing else: no register, no line, no QUEUE, no RESULT. -/
def Obligations.EncoderCallsChangeOnlyTheLanes : Prop :=
  ∀ s : State,
    let lanes (f : Frame) : State := { s with encOut := [f.f0, f.f1, f.f2, f.f3] }
    (∀ d, exec (.encDigit d) s = .next { s with encOut := [encDigit Config.params d] }) ∧
    (∀ c, exec (.encChar c) s = .next { s with encOut := [encChar Config.params c] }) ∧
    (∀ value lz, exec (.encNumber value lz) s = .next (lanes (encNumber Config.params value lz))) ∧
    (∀ f c, exec (.applyColon f c) s = .next (lanes (applyColon f c))) ∧
    (∀ m sec, exec (.encTime m sec) s = .next (lanes (encTime Config.params m sec))) ∧
    (∀ text, exec (.encText text) s = .next (lanes (encText Config.params text)))

/-- R156, R150, R151: ENC_DIGIT on every integer, the digit and hexadecimal glyphs written out (log 12: all but 0 and 8
are PRESUMED by the spec), over every value of the parameters. -/
def Obligations.EncDigitGivesTheGlyph : Prop :=
  ∀ (p : Params) (d : Int),
    encDigit p d =
      (if d = 0 then 0x3F else if d = 1 then 0x06 else if d = 2 then 0x5B else if d = 3 then 0x4F
        else if d = 4 then 0x66 else if d = 5 then 0x6D else if d = 6 then 0x7D else if d = 7 then 0x07
        else if d = 8 then 0x7F else if d = 9 then 0x6F
        else if p.hexDigits = false then 0x00
        else if d = 10 then 0x77 else if d = 11 then 0x7C else if d = 12 then 0x39 else if d = 13 then 0x5E
        else if d = 14 then 0x79 else if d = 15 then 0x71 else 0x00)

/-- R157, R153: ENC_CHAR: the three punctuation glyphs, the letters of LETTER_GLYPH in either case, and 0x00 for anything
else, a digit character and a non-ASCII character among them; over every value of the parameters. R154's map is held as a
pair of glyphs per letter (log 18), and the underscore's glyph is PRESUMED by the spec (log 12). -/
def Obligations.EncCharLooksUpItsTables : Prop :=
  ∀ (p : Params) (c : Char),
    ∃ g : Byte, encChar p c = g ∧
      (c = ' ' → g = 0x00) ∧ (c = '-' → g = 0x40) ∧ (c = '_' → g = 0x08) ∧
      (∀ k : Nat, k < 26 → c.toNat = 65 + k →
        g = match p.letters k with | none => 0x00 | some u => u.1.setWidth 8) ∧
      (∀ k : Nat, k < 26 → c.toNat = 97 + k →
        g = match p.letters k with | none => 0x00 | some u => u.2.setWidth 8) ∧
      (c ≠ '-' → c ≠ '_' → ¬ (65 ≤ c.toNat ∧ c.toNat ≤ 90) → ¬ (97 ≤ c.toNat ∧ c.toNat ≤ 122) → g = 0x00)

/-- R158, R159, R160, R161: ENC_NUMBER on every integer. With `a` the clamped magnitude and d its four decimal digits there is a
count `k` of blanked positions, 0 with `leadingZero` and else the zeros at the front of positions 0 to 2; position `j`
holds the sign if the value is negative and `j` is the last blanked position (position 0 if none is), else blank if
`j < k`, else the glyph of its digit (R150's table, log 12). -/
def Obligations.EncNumberPlacesDigitsAndSign : Prop :=
  ∀ (p : Params) (value : Int) (lz : Bool),
    ∃ (a d0 d1 d2 d3 k : Nat) (f : Frame), encNumber p value lz = f ∧
      (a : Int) = max (min (max value (-999)) 9999) (- min (max value (-999)) 9999) ∧
      a = 1000 * d0 + 100 * d1 + 10 * d2 + d3 ∧ d0 < 10 ∧ d1 < 10 ∧ d2 < 10 ∧ d3 < 10 ∧
      (lz = true → k = 0) ∧
      (lz = false → k ≤ 3 ∧ (1 ≤ k → d0 = 0) ∧ (2 ≤ k → d1 = 0) ∧ (3 ≤ k → d2 = 0) ∧
        (k = 0 → d0 ≠ 0) ∧ (k = 1 → d1 ≠ 0) ∧ (k = 2 → d2 ≠ 0)) ∧
      (let lane (j d : Nat) : Byte :=
          if value < 0 ∧ j = k - 1 then 0x40 else if j < k then 0x00
          else [0x3F, 0x06, 0x5B, 0x4F, 0x66, 0x6D, 0x7D, 0x07, 0x7F, 0x6F].getD d 0x00
       f.f0 = lane 0 d0 ∧ f.f1 = lane 1 d1 ∧ f.f2 = lane 2 d2 ∧ f.f3 = lane 3 d3)

/-- R161: the sign never overwrites a significant digit: for a negative value the thousands digit is 0, so position 0,
where the sign goes when nothing is blanked, holds a leading zero, and otherwise the sign stands on a blanked position
0 to 2. -/
def Obligations.SignOverwritesNoSignificantDigit : Prop :=
  ∀ (value : Int) (lz : Bool), value < 0 →
    let d := decimalDigits (clamp value (-999) 9999).natAbs
    let k := blankCount d lz
    d.getD 0 0 = 0 ∧ d.getD (signPosition k) 0 = 0 ∧ signPosition k ≤ 2 ∧
      (∀ p : Params, (encNumber p value lz).get (signPosition k) = 0x40)

/-- R162: APPLY_COLON sets bit 7 of lane 1 when the flag is set and changes nothing else; it is idempotent and never
clears the bit. -/
def Obligations.ApplyColonTouchesLaneOneOnly : Prop :=
  (∀ f : Frame, applyColon f true = ⟨f.f0, f.f1 ||| 0x80, f.f2, f.f3⟩ ∧ applyColon f false = f) ∧
  (∀ (f : Frame) (c : Bool), applyColon (applyColon f c) c = applyColon f c) ∧
  (∀ (f : Frame) (c : Bool), f.f1.getLsbD 7 = true → (applyColon f c).f1.getLsbD 7 = true)

/-- R163: ENC_TIME clamps minutes to 0..99 and seconds to 0..59, shows all four digits and always sets bit 7 of
position 1. The digit glyphs are R150's table (log 12). -/
def Obligations.EncTimeShowsFourDigitsAndTheColon : Prop :=
  ∀ (p : Params) (m sec : Int),
    ∃ m1 m0 s1 s0 : Nat, m1 < 10 ∧ m0 < 10 ∧ s1 < 6 ∧ s0 < 10 ∧
      (10 * m1 + m0 : Int) = min (max m 0) 99 ∧ (10 * s1 + s0 : Int) = min (max sec 0) 59 ∧
      (let glyph (d : Nat) : Byte := [0x3F, 0x06, 0x5B, 0x4F, 0x66, 0x6D, 0x7D, 0x07, 0x7F, 0x6F].getD d 0x00
       encTime p m sec = ⟨glyph m1, glyph m0 ||| 0x80, glyph s1, glyph s0⟩)

/-- R164: ENC_TEXT: position `i` from character `i`, spaces for missing ones, an ASCII digit through ENC_DIGIT, anything
else through ENC_CHAR; characters after the fourth are dropped. The digit glyphs are R150's table (log 12). -/
def Obligations.EncTextIsLeftAlignedAndCut : Prop :=
  ∀ (p : Params) (text : List Char),
    let lane (i : Nat) : Byte :=
      match text[i]? with
      | none => 0x00
      | some c =>
        if 48 ≤ c.toNat ∧ c.toNat ≤ 57 then
          [0x3F, 0x06, 0x5B, 0x4F, 0x66, 0x6D, 0x7D, 0x07, 0x7F, 0x6F].getD (c.toNat - 48) 0x00
        else encChar p c
    encText p text = ⟨lane 0, lane 1, lane 2, lane 3⟩

/-- R155: no encoder but ENC_TIME sets bit 7 of any byte, whatever the parameters (the tables are log 12's, the type of
LETTER_GLYPH log 18's). -/
def Obligations.EncodersLeaveTheColonBitClear : Prop :=
  ∀ p : Params,
    (∀ d : Int, (encDigit p d).getLsbD 7 = false) ∧
    (∀ c : Char, (encChar p c).getLsbD 7 = false) ∧
    (∀ (value : Int) (lz : Bool) (b : Byte), b ∈ (encNumber p value lz).toList → b.getLsbD 7 = false) ∧
    (∀ (t : List Char) (b : Byte), b ∈ (encText p t).toList → b.getLsbD 7 = false)

/-! ### Micro-actions and the sequencer -/

/-- R101, R102: Drive(L, v) on a configured line with its pin sets the line's output level and nothing else; the DIO bus
level is then `v` and not the peer's pull; a line not configured is a fault. -/
def Obligations.DriveSetsOneLine : Prop :=
  (∀ (v : Level) (pin : PinId) (s : State), s.clkPin = some pin → s.clkCfg = .pullUpIO →
    perform (.drive .clk v) s = .next { s with clkOut := some v }) ∧
  (∀ (v : Level) (pin : PinId) (s : State), s.dioPin = some pin → s.dioCfg = .pullUpIO →
    perform (.drive .dio v) s = .next { s with dioOut := some v }) ∧
  (∀ (v pull : Level), busLevel v pull = (v && !pull)) ∧
  (∀ (v : Level) (pin : PinId) (s : State), s.clkPin = some pin → s.clkCfg = .unconfigured →
    perform (.drive .clk v) s = .fault (.unconfiguredLine .clk)) ∧
  (∀ (v : Level) (pin : PinId) (s : State), s.dioPin = some pin → s.dioCfg = .unconfigured →
    perform (.drive .dio v) s = .fault (.unconfiguredLine .dio))

/-- R103: Wait() changes no state. -/
def Obligations.WaitChangesNothing : Prop := ∀ s : State, perform .wait s = .next s

/-- R104, R31: Sample(DIO) appends (level = 0) to ACK_LOG for the bus level DIO_OUT and not the peer's pull; the pull is
the free draw of this sample (log 5), and a NACK raises nothing. -/
def Obligations.SampleAppendsTheAckFlag : Prop :=
  ∀ (pin : PinId) (out : Level) (s : State), s.dioPin = some pin → s.dioOut = some out →
    perform .sample s = .next { s with
      ackLog := s.ackLog ++ [!(out && !Config.peerPull s.peerDraw)]
      peerDraw := s.peerDraw + 1 }

/-- R105, with the model's reading of log 9: ConfigPullUp(L) configures the line, and its output level holds no value
until the next Drive. -/
def Obligations.ConfigPullUpLeavesNoLevel : Prop :=
  (∀ (pin : PinId) (s : State), s.clkPin = some pin →
    perform (.configPullUp .clk) s = .next { s with clkCfg := .pullUpIO, clkOut := none }) ∧
  (∀ (pin : PinId) (s : State), s.dioPin = some pin →
    perform (.configPullUp .dio) s = .next { s with dioCfg := .pullUpIO, dioOut := none })

/-- R20: a read of a register that holds no value is a fault: the pin of every micro-action but Wait, DIO_OUT at a
sample, and COLON, POWER and BRIGHTNESS at every accepted operation that reads them: POWER and BRIGHTNESS at CLEAR,
SHOW_NUMBER, SHOW_TIME, SHOW_RAW and SHOW_TEXT, COLON at SHOW_NUMBER and SHOW_TEXT (INIT and SET_BRIGHTNESS write what they
send). Which register the fault names where several hold no value, and that a line without a pin gives this fault even
when it is not configured, is log 23; that Sample reads DIO_PIN and DIO_OUT is log 16. -/
def Obligations.ReadingNoValueFaults : Prop :=
  (∀ (v : Level) (s : State), s.clkPin = none →
    perform (.drive .clk v) s = .fault (.noValue .clkPin) ∧
    perform (.configPullUp .clk) s = .fault (.noValue .clkPin)) ∧
  (∀ (v : Level) (s : State), s.dioPin = none →
    perform (.drive .dio v) s = .fault (.noValue .dioPin) ∧ perform .sample s = .fault (.noValue .dioPin) ∧
    perform (.configPullUp .dio) s = .fault (.noValue .dioPin)) ∧
  (∀ (pin : PinId) (s : State), s.dioPin = some pin → s.dioOut = none →
    perform .sample s = .fault (.noValue .dioOut)) ∧
  (∀ (i : Instr) (s : State), isRender i = true → isInit i = false → s.queue = [] → s.initialized = true →
    (Config.strictRange = true → operandsInRange i = true) →
    (readsColon i = true → s.colon = none → exec i s = .fault (.noValue .colon)) ∧
    ((readsColon i = true → s.colon ≠ none) → s.power = none → exec i s = .fault (.noValue .power)) ∧
    ((readsColon i = true → s.colon ≠ none) → s.power ≠ none → s.brightness = none →
      exec i s = .fault (.noValue .brightness)))

/-- R30, R63: the sequencer removes exactly the head of QUEUE, never branches, and writes no session register, no
presented word (log 6) and no encoder lane (log 8) while an operation runs. -/
def Obligations.SequencerOnlyAdvances : Prop :=
  ∀ s t : State, advance s = .next t →
    t.queue = s.queue.tail ∧ t.clkPin = s.clkPin ∧ t.dioPin = s.dioPin ∧ t.brightness = s.brightness ∧
    t.power = s.power ∧ t.colon = s.colon ∧ t.initialized = s.initialized ∧ t.port = s.port ∧ t.encOut = s.encOut

/-- R32, R30: what a step of the sequencer does to RESULT (acceptance, which writes it too, is not in this statement: R190).
The step that empties QUEUE while a host operation is in progress writes code 0, the ACK flags of the operation and
whether a NACK is among them; one after which micro-actions remain keeps it. That the step that ends a direct call keeps
it too is the model's choice (log 7), as is opActive, which tells the two apart (log 10). -/
def Obligations.ResultIsWrittenAtCompletion : Prop :=
  ∀ (a : MicroAction) (rest : List MicroAction) (s t : State), s.queue = a :: rest → advance s = .next t →
    (rest ≠ [] → t.result = s.result ∧ t.opActive = s.opActive) ∧
    (rest = [] → s.opActive = true →
      t.result = some { cond := .ok, acks := t.ackLog, nackSeen := decide (false ∈ t.ackLog) } ∧ t.opActive = false) ∧
    (rest = [] → s.opActive = false → t.result = s.result ∧ t.opActive = false)

/-! ### Frames -/

/-- R34 for the operations, and for the direct calls the model's choice (logs 7, 8): which instruction writes which session
register: the pins and INITIALIZED only INIT, BRIGHTNESS and POWER only INIT and SET_BRIGHTNESS, COLON only INIT and SET_COLON; every other instruction of the table leaves them. -/
def Obligations.SessionRegisterWriters : Prop :=
  ∀ (i : Instr) (s t : State), exec i s = .next t →
    (isInit i = false → t.clkPin = s.clkPin ∧ t.dioPin = s.dioPin ∧ t.initialized = s.initialized) ∧
    (isInit i = false → (∀ l e, i ≠ .setBrightness l e) → t.brightness = s.brightness ∧ t.power = s.power) ∧
    (isInit i = false → (∀ c, i ≠ .setColon c) → t.colon = s.colon)

/-- R28, R30: an instruction changes no line at once (only the micro-actions it queues do). That it takes no presented word
(log 6), draws no sample (log 5), that a request leaves the encoder lanes (log 8), and that a direct call of a BUS or
INTERNAL row leaves ACK_LOG, RESULT and everything else but QUEUE (log 7) and opActive (log 10), are the model's choices. -/
def Obligations.ExecFrame : Prop :=
  ∀ (i : Instr) (s t : State), exec i s = .next t →
    (t.clkCfg = s.clkCfg ∧ t.dioCfg = s.dioCfg ∧ t.clkOut = s.clkOut ∧ t.dioOut = s.dioOut ∧ t.port = s.port ∧
      t.peerDraw = s.peerDraw) ∧
    (i.isRequest = true → t.encOut = s.encOut) ∧
    ((firstPrim i).isSome = true → t = { s with queue := t.queue, opActive := t.opActive })

/-- R27: no step clears INITIALIZED. -/
def Obligations.InitializedIsNeverCleared : Prop :=
  ∀ s t : State, step s = .next t → s.initialized = true → t.initialized = true

/-! ### The wire -/

/-- R110: pin writes, samples and least times of START, WRITE_BYTE and STOP. -/
def Obligations.PrimitivePinWriteCounts : Prop :=
  pinWrites startSeq = 2 ∧ samples startSeq = 0 ∧ minMicros startSeq = 10 ∧
  (∀ b : Byte, pinWrites (writeByteSeq b) = 28 ∧ samples (writeByteSeq b) = 1 ∧ minMicros (writeByteSeq b) = 140) ∧
  pinWrites stopSeq = 3 ∧ samples stopSeq = 0 ∧ minMicros stopSeq = 15

/-- R270: pin writes, samples and least times of the commands, of RENDER and of INIT. -/
def Obligations.OperationPinWriteCounts : Prop :=
  (∀ b : Byte, pinWrites (transaction [b]) = 33 ∧ samples (transaction [b]) = 1 ∧ minMicros (transaction [b]) = 165) ∧
  (∀ a b : Byte, pinWrites (transaction [a, b]) = 61 ∧ samples (transaction [a, b]) = 2 ∧
    minMicros (transaction [a, b]) = 305) ∧
  (∀ (f : Frame) (e : Bool) (br : Int), pinWrites (renderSeq f e br) = 310 ∧ samples (renderSeq f e br) = 10 ∧
    minMicros (renderSeq f e br) = 1550) ∧
  (∀ p : Params, pinWrites (initSeq p) = 312 ∧ samples (initSeq p) = 10 ∧ minMicros (initSeq p) = 1560)

/-- R264, R100: in whatever QUEUE an instruction, a direct call (log 7) among them, leaves on an idle block, every pin write
is followed by a Wait. -/
def Obligations.EveryPinWriteIsDelayed : Prop :=
  ∀ (i : Instr) (s t : State), s.queue = [] → exec i s = .next t → writesAreDelayed t.queue = true

/-- R111: while CLK is high DIO changes only at START's first write, a fall, and at STOP's last write, a rise; WRITE_BYTE
changes it only while CLK is low; START leaves both lines low, WRITE_BYTE leaves CLK low and DIO released, STOP leaves
both high; and so over a transaction of any bytes DIO changes exactly twice while CLK is high. -/
def Obligations.DioIsStableWhileClkIsHigh : Prop :=
  (pinTrace startSeq (true, true) = [(true, false), (false, false)] ∧
    highChanges (pinTrace startSeq (true, true)) (true, true) = [false]) ∧
  (∀ (b : Byte) (d : Level), highChanges (pinTrace (writeByteSeq b) (false, d)) (false, d) = [] ∧
    finalPair (writeByteSeq b) (false, d) = (false, true)) ∧
  (∀ d : Level, pinTrace stopSeq (false, d) = [(false, false), (true, false), (true, true)] ∧
    highChanges (pinTrace stopSeq (false, d)) (false, d) = [true]) ∧
  (∀ bytes : List Byte, highChanges (pinTrace (transaction bytes) (true, true)) (true, true) = [false, true] ∧
    finalPair (transaction bytes) (true, true) = (true, true))

/-- R112: a receiver of the block's own outputs reads from a transaction exactly its bytes, and from several transactions
in a row exactly those, in order. -/
def Obligations.ReceiverReadsTheTransactions : Prop :=
  ∀ txns : List (List Byte), wireTransactions (txns.flatMap transaction) = txns

/-- R112: the same over the bus, whatever the peer pulls in the ACK slots; with no pull the bus is the block's outputs. -/
def Obligations.ReceiverReadsThroughPeerPulls : Prop :=
  ∀ bytes : List (Byte × SlotPulls), bytes ≠ [] →
    readTrace (true, true) (busTraceTransaction bytes) = [bytes.map Prod.fst] ∧
    ((∀ x ∈ bytes, x.2 = ⟨false, false, false⟩) →
      busTraceTransaction bytes = pinTrace (transaction (bytes.map Prod.fst)) (true, true))

/-- R71, R76, R77: every transaction in the QUEUE an operation or a direct call of a command (log 7) leaves is one of
the block's commands, of the length its first byte fixes: the decoder reads an instruction from its bytes (0x44 among
them, log 13). -/
def Obligations.OnlyCommandsGoOnTheWire : Prop :=
  ∀ (i : Instr) (s t : State), s.queue = [] → exec i s = .next t → i ≠ .start → i ≠ .stop →
    (∀ b, i ≠ .writeByte b) → ∀ txn ∈ wireTransactions t.queue, ∃ j, decode (.bus txn) = .ok j

/-- R135, R200: every render an idle block accepts ends with the control byte of POWER and BRIGHTNESS as they stand after
acceptance. -/
def Obligations.EveryRenderEndsWithTheControlByte : Prop :=
  ∀ (i : Instr) (s t : State), isRender i = true → s.queue = [] → exec i s = .next t → t.queue ≠ [] →
    ∃ (e : Bool) (br : Fin 8), t.power = some e ∧ t.brightness = some br ∧
      (wireTransactions t.queue).length = 6 ∧
      (wireTransactions t.queue).getLast? = some [BitVec.ofNat 8 (0x80 + (if e then 8 else 0) + br.val)]

/-! ### Encoding -/

/-- R78, R72 to R74: decoding the word of a well-formed instruction gives it back, with every operand (0x44 is log 13, the words
of direct calls log 7, a reserved code's operands log 11). -/
def Obligations.DecodeOfEncode : Prop :=
  ∀ i : Instr, i.wellFormed = true → decode (encode i) = .ok i

/-- R78, R72 to R74: each word has one meaning: a word that decodes to an instruction other than a reserved code is the
word of that instruction. The words of the BUS, INTERNAL and FUNC rows are the model's direct calls (log 7; R81 gives
them no code), 0x44 is log 13, and reserved codes are left out because the encoder gives them no operands (log 11). -/
def Obligations.EncodeOfDecode : Prop :=
  ∀ (w : PortWord) (i : Instr), decode w = .ok i → (∀ code, i ≠ .reservedReq code) → encode i = w

/-- R78, R72 to R74: words written out from the spec's encodings decode to what they stand for; that a transaction can be
presented is log 7, and the two pins are log 3's. -/
def Obligations.SampleWordsDecode : Prop :=
  decode (.req 0b0000 [.pin (programPin 0), .pin (programPin 1)]) = .ok (.init (programPin 0) (programPin 1)) ∧
  decode (.req 0b0011 [.int 1234, .bool false]) = .ok (.showNumber 1234 false) ∧
  decode (.bus [0b01000000]) = .ok .cmdDataAuto ∧
  decode (.bus [0b11000001, 0x5B]) = .ok (.cmdAddr 1 0x5B) ∧
  decode (.bus [0b10001100]) = .ok (.cmdCtrl true 4) ∧
  decode (.bus [0b11000100, 0x00]) = .error .notBusCommand

/-! ### Whole-machine statements -/

/-- The session invariant is kept by every step. It rests on R20, R30, R107, R192 and R260, and speaks of the model's own
port (log 6) and opActive (log 10). -/
def Obligations.StepKeepsTheSessionInvariant : Prop :=
  ∀ s t : State, SessionInv s → step s = .next t → SessionInv t

/-- R20, R113: no step of a state that meets the session invariant faults: no register without a value is read, no
unconfigured line is driven, and every primitive's line precondition holds at its use (log 17). The invariant admits no direct call (logs 6, 7). -/
def Obligations.SessionInvariantStepsNeverFault : Prop :=
  ∀ s : State, SessionInv s → NoFault (step s)

/-- R230, R260: whatever requests the host presents from power-up on, malformed ones among them, and however the peer
answers, no run of any length ends in a fault (a malformed one ends the run in its refusal, log 6). -/
def Obligations.RequestsFromPowerUpNeverFault : Prop :=
  ∀ (ws : List PortWord) (k : Nat) (r : Fault), ws.all isRequestWord = true →
    Host.Core.run Sys2Proof.core k { State.reset with port := ws } ≠ .fault r

/-- R30, R32, R58, R191: an operation in progress runs to completion in as many steps as QUEUE holds micro-actions: QUEUE
is empty, the lines are idle-high, the session registers are as they were, and RESULT holds code 0 with one ACK flag more
for each sample (free values, log 5). That a word the block refuses would end the run is log 6. -/
def Obligations.QueuedOperationCompletes : Prop :=
  ∀ s : State, SessionInv s → s.initialized = true → s.queue ≠ [] → portAccepted s = true →
    ∃ (t : State) (flags : List Bool),
      Host.Core.run Sys2Proof.core s.queue.length s = .next t ∧
      t.queue = [] ∧ linesOf t = Lines.idleHigh ∧ flags.length = samples s.queue ∧
      t.result = some { cond := .ok, acks := s.ackLog ++ flags, nackSeen := decide (false ∈ s.ackLog ++ flags) } ∧
      t.status = s.status ∧ t.port = s.port

/-- R191, R134, R136: every render an idle block accepts, INIT and a second INIT among them, with nothing else presented,
completes with code 0 and ten ACK flags, the lines idle-high and the status outputs as they stand after acceptance: for
INIT those of R192, for every other render those from before it (R200). -/
def Obligations.RenderRequestRunsToCompletion : Prop :=
  ∀ (i : Instr) (s t : State), SessionInv s → s.queue = [] → s.port = [] →
    isRender i = true → exec i s = .next t → t.queue ≠ [] →
    (∃ (u : State) (acks : List Bool),
      Host.Core.run Sys2Proof.core t.queue.length t = .next u ∧ u.queue = [] ∧ acks.length = 10 ∧
      u.result = some { cond := .ok, acks := acks, nackSeen := decide (false ∈ acks) } ∧
      linesOf u = Lines.idleHigh ∧ u.status = t.status) ∧
    (isInit i = false → t.status = s.status) ∧
    (∀ clk dio : PinId, i = .init clk dio → t.status =
      { brightness := some (if Config.initBrightness = .three then 3 else 4), power := some true, colon := some false
        initialized := true, clkPin := some clk, dioPin := some dio })

/-- R109, R137, R232: the peer's answers never change control flow: two states that differ only in ACK_LOG, RESULT and the
draws to come take steps that differ only there, and stop in the same cases. The draws are log 5's. -/
def Obligations.AcksNeverSteerTheBlock : Prop :=
  ∀ s t : State, blind s = blind t → blindOut (step s) = blindOut (step t)

/-- R231: the condition codes' numbers. -/
def Obligations.ConditionCodesAreNumbered : Prop :=
  Cond.ok.code = 0 ∧ Cond.uninitIgnored.code = 1 ∧ Cond.uninitError.code = 2 ∧ Cond.outOfRange.code = 3
end

