-- ==== Sys2Proof/Laws/State.lean ====
section
/-! SUPPORT. What each update of the state does to each field: one lemma per field per update, true by rfl. -/

namespace Sys2Proof.Machine

/-! ### clearAcks -/

@[simp] theorem State.clearAcks_clkPin (s : State) : s.clearAcks.clkPin = s.clkPin := rfl
@[simp] theorem State.clearAcks_dioPin (s : State) : s.clearAcks.dioPin = s.dioPin := rfl
@[simp] theorem State.clearAcks_brightness (s : State) : s.clearAcks.brightness = s.brightness := rfl
@[simp] theorem State.clearAcks_power (s : State) : s.clearAcks.power = s.power := rfl
@[simp] theorem State.clearAcks_colon (s : State) : s.clearAcks.colon = s.colon := rfl
@[simp] theorem State.clearAcks_initialized (s : State) : s.clearAcks.initialized = s.initialized := rfl
@[simp] theorem State.clearAcks_clkCfg (s : State) : s.clearAcks.clkCfg = s.clkCfg := rfl
@[simp] theorem State.clearAcks_dioCfg (s : State) : s.clearAcks.dioCfg = s.dioCfg := rfl
@[simp] theorem State.clearAcks_clkOut (s : State) : s.clearAcks.clkOut = s.clkOut := rfl
@[simp] theorem State.clearAcks_dioOut (s : State) : s.clearAcks.dioOut = s.dioOut := rfl
@[simp] theorem State.clearAcks_queue (s : State) : s.clearAcks.queue = s.queue := rfl
@[simp] theorem State.clearAcks_ackLog (s : State) : s.clearAcks.ackLog = [] := rfl
@[simp] theorem State.clearAcks_result (s : State) : s.clearAcks.result = s.result := rfl
@[simp] theorem State.clearAcks_opActive (s : State) : s.clearAcks.opActive = s.opActive := rfl
@[simp] theorem State.clearAcks_port (s : State) : s.clearAcks.port = s.port := rfl
@[simp] theorem State.clearAcks_peerDraw (s : State) : s.clearAcks.peerDraw = s.peerDraw := rfl
@[simp] theorem State.clearAcks_encOut (s : State) : s.clearAcks.encOut = s.encOut := rfl

/-! ### complete -/

@[simp] theorem State.complete_clkPin (s : State) (c : Cond) : (s.complete c).clkPin = s.clkPin := rfl
@[simp] theorem State.complete_dioPin (s : State) (c : Cond) : (s.complete c).dioPin = s.dioPin := rfl
@[simp] theorem State.complete_brightness (s : State) (c : Cond) : (s.complete c).brightness = s.brightness := rfl
@[simp] theorem State.complete_power (s : State) (c : Cond) : (s.complete c).power = s.power := rfl
@[simp] theorem State.complete_colon (s : State) (c : Cond) : (s.complete c).colon = s.colon := rfl
@[simp] theorem State.complete_initialized (s : State) (c : Cond) : (s.complete c).initialized = s.initialized := rfl
@[simp] theorem State.complete_clkCfg (s : State) (c : Cond) : (s.complete c).clkCfg = s.clkCfg := rfl
@[simp] theorem State.complete_dioCfg (s : State) (c : Cond) : (s.complete c).dioCfg = s.dioCfg := rfl
@[simp] theorem State.complete_clkOut (s : State) (c : Cond) : (s.complete c).clkOut = s.clkOut := rfl
@[simp] theorem State.complete_dioOut (s : State) (c : Cond) : (s.complete c).dioOut = s.dioOut := rfl
@[simp] theorem State.complete_queue (s : State) (c : Cond) : (s.complete c).queue = s.queue := rfl
@[simp] theorem State.complete_ackLog (s : State) (c : Cond) : (s.complete c).ackLog = s.ackLog := rfl
@[simp] theorem State.complete_result (s : State) (c : Cond) : (s.complete c).result = some { cond := c, acks := s.ackLog, nackSeen := nackSeen s.ackLog } := rfl
@[simp] theorem State.complete_opActive (s : State) (c : Cond) : (s.complete c).opActive = false := rfl
@[simp] theorem State.complete_port (s : State) (c : Cond) : (s.complete c).port = s.port := rfl
@[simp] theorem State.complete_peerDraw (s : State) (c : Cond) : (s.complete c).peerDraw = s.peerDraw := rfl
@[simp] theorem State.complete_encOut (s : State) (c : Cond) : (s.complete c).encOut = s.encOut := rfl

/-! ### initSession -/

@[simp] theorem State.initSession_clkPin (s : State) (p : Params) (clk dio : PinId) : (s.initSession p clk dio).clkPin = some clk := rfl
@[simp] theorem State.initSession_dioPin (s : State) (p : Params) (clk dio : PinId) : (s.initSession p clk dio).dioPin = some dio := rfl
@[simp] theorem State.initSession_brightness (s : State) (p : Params) (clk dio : PinId) : (s.initSession p clk dio).brightness = some (initLevel p) := rfl
@[simp] theorem State.initSession_power (s : State) (p : Params) (clk dio : PinId) : (s.initSession p clk dio).power = some true := rfl
@[simp] theorem State.initSession_colon (s : State) (p : Params) (clk dio : PinId) : (s.initSession p clk dio).colon = some false := rfl
@[simp] theorem State.initSession_initialized (s : State) (p : Params) (clk dio : PinId) : (s.initSession p clk dio).initialized = true := rfl
@[simp] theorem State.initSession_clkCfg (s : State) (p : Params) (clk dio : PinId) : (s.initSession p clk dio).clkCfg = s.clkCfg := rfl
@[simp] theorem State.initSession_dioCfg (s : State) (p : Params) (clk dio : PinId) : (s.initSession p clk dio).dioCfg = s.dioCfg := rfl
@[simp] theorem State.initSession_clkOut (s : State) (p : Params) (clk dio : PinId) : (s.initSession p clk dio).clkOut = s.clkOut := rfl
@[simp] theorem State.initSession_dioOut (s : State) (p : Params) (clk dio : PinId) : (s.initSession p clk dio).dioOut = s.dioOut := rfl
@[simp] theorem State.initSession_queue (s : State) (p : Params) (clk dio : PinId) : (s.initSession p clk dio).queue = s.queue := rfl
@[simp] theorem State.initSession_ackLog (s : State) (p : Params) (clk dio : PinId) : (s.initSession p clk dio).ackLog = s.ackLog := rfl
@[simp] theorem State.initSession_result (s : State) (p : Params) (clk dio : PinId) : (s.initSession p clk dio).result = s.result := rfl
@[simp] theorem State.initSession_opActive (s : State) (p : Params) (clk dio : PinId) : (s.initSession p clk dio).opActive = s.opActive := rfl
@[simp] theorem State.initSession_port (s : State) (p : Params) (clk dio : PinId) : (s.initSession p clk dio).port = s.port := rfl
@[simp] theorem State.initSession_peerDraw (s : State) (p : Params) (clk dio : PinId) : (s.initSession p clk dio).peerDraw = s.peerDraw := rfl
@[simp] theorem State.initSession_encOut (s : State) (p : Params) (clk dio : PinId) : (s.initSession p clk dio).encOut = s.encOut := rfl

/-! ### setLevel -/

@[simp] theorem State.setLevel_clkPin (s : State) (lv : Fin 8) (e : Bool) : (s.setLevel lv e).clkPin = s.clkPin := rfl
@[simp] theorem State.setLevel_dioPin (s : State) (lv : Fin 8) (e : Bool) : (s.setLevel lv e).dioPin = s.dioPin := rfl
@[simp] theorem State.setLevel_brightness (s : State) (lv : Fin 8) (e : Bool) : (s.setLevel lv e).brightness = some lv := rfl
@[simp] theorem State.setLevel_power (s : State) (lv : Fin 8) (e : Bool) : (s.setLevel lv e).power = some e := rfl
@[simp] theorem State.setLevel_colon (s : State) (lv : Fin 8) (e : Bool) : (s.setLevel lv e).colon = s.colon := rfl
@[simp] theorem State.setLevel_initialized (s : State) (lv : Fin 8) (e : Bool) : (s.setLevel lv e).initialized = s.initialized := rfl
@[simp] theorem State.setLevel_clkCfg (s : State) (lv : Fin 8) (e : Bool) : (s.setLevel lv e).clkCfg = s.clkCfg := rfl
@[simp] theorem State.setLevel_dioCfg (s : State) (lv : Fin 8) (e : Bool) : (s.setLevel lv e).dioCfg = s.dioCfg := rfl
@[simp] theorem State.setLevel_clkOut (s : State) (lv : Fin 8) (e : Bool) : (s.setLevel lv e).clkOut = s.clkOut := rfl
@[simp] theorem State.setLevel_dioOut (s : State) (lv : Fin 8) (e : Bool) : (s.setLevel lv e).dioOut = s.dioOut := rfl
@[simp] theorem State.setLevel_queue (s : State) (lv : Fin 8) (e : Bool) : (s.setLevel lv e).queue = s.queue := rfl
@[simp] theorem State.setLevel_ackLog (s : State) (lv : Fin 8) (e : Bool) : (s.setLevel lv e).ackLog = s.ackLog := rfl
@[simp] theorem State.setLevel_result (s : State) (lv : Fin 8) (e : Bool) : (s.setLevel lv e).result = s.result := rfl
@[simp] theorem State.setLevel_opActive (s : State) (lv : Fin 8) (e : Bool) : (s.setLevel lv e).opActive = s.opActive := rfl
@[simp] theorem State.setLevel_port (s : State) (lv : Fin 8) (e : Bool) : (s.setLevel lv e).port = s.port := rfl
@[simp] theorem State.setLevel_peerDraw (s : State) (lv : Fin 8) (e : Bool) : (s.setLevel lv e).peerDraw = s.peerDraw := rfl
@[simp] theorem State.setLevel_encOut (s : State) (lv : Fin 8) (e : Bool) : (s.setLevel lv e).encOut = s.encOut := rfl

/-! ### setColonFlag -/

@[simp] theorem State.setColonFlag_clkPin (s : State) (c : Bool) : (s.setColonFlag c).clkPin = s.clkPin := rfl
@[simp] theorem State.setColonFlag_dioPin (s : State) (c : Bool) : (s.setColonFlag c).dioPin = s.dioPin := rfl
@[simp] theorem State.setColonFlag_brightness (s : State) (c : Bool) : (s.setColonFlag c).brightness = s.brightness := rfl
@[simp] theorem State.setColonFlag_power (s : State) (c : Bool) : (s.setColonFlag c).power = s.power := rfl
@[simp] theorem State.setColonFlag_colon (s : State) (c : Bool) : (s.setColonFlag c).colon = some c := rfl
@[simp] theorem State.setColonFlag_initialized (s : State) (c : Bool) : (s.setColonFlag c).initialized = s.initialized := rfl
@[simp] theorem State.setColonFlag_clkCfg (s : State) (c : Bool) : (s.setColonFlag c).clkCfg = s.clkCfg := rfl
@[simp] theorem State.setColonFlag_dioCfg (s : State) (c : Bool) : (s.setColonFlag c).dioCfg = s.dioCfg := rfl
@[simp] theorem State.setColonFlag_clkOut (s : State) (c : Bool) : (s.setColonFlag c).clkOut = s.clkOut := rfl
@[simp] theorem State.setColonFlag_dioOut (s : State) (c : Bool) : (s.setColonFlag c).dioOut = s.dioOut := rfl
@[simp] theorem State.setColonFlag_queue (s : State) (c : Bool) : (s.setColonFlag c).queue = s.queue := rfl
@[simp] theorem State.setColonFlag_ackLog (s : State) (c : Bool) : (s.setColonFlag c).ackLog = s.ackLog := rfl
@[simp] theorem State.setColonFlag_result (s : State) (c : Bool) : (s.setColonFlag c).result = s.result := rfl
@[simp] theorem State.setColonFlag_opActive (s : State) (c : Bool) : (s.setColonFlag c).opActive = s.opActive := rfl
@[simp] theorem State.setColonFlag_port (s : State) (c : Bool) : (s.setColonFlag c).port = s.port := rfl
@[simp] theorem State.setColonFlag_peerDraw (s : State) (c : Bool) : (s.setColonFlag c).peerDraw = s.peerDraw := rfl
@[simp] theorem State.setColonFlag_encOut (s : State) (c : Bool) : (s.setColonFlag c).encOut = s.encOut := rfl

/-! ### recordSample -/

@[simp] theorem State.recordSample_clkPin (s : State) (lvl : Level) : (s.recordSample lvl).clkPin = s.clkPin := rfl
@[simp] theorem State.recordSample_dioPin (s : State) (lvl : Level) : (s.recordSample lvl).dioPin = s.dioPin := rfl
@[simp] theorem State.recordSample_brightness (s : State) (lvl : Level) : (s.recordSample lvl).brightness = s.brightness := rfl
@[simp] theorem State.recordSample_power (s : State) (lvl : Level) : (s.recordSample lvl).power = s.power := rfl
@[simp] theorem State.recordSample_colon (s : State) (lvl : Level) : (s.recordSample lvl).colon = s.colon := rfl
@[simp] theorem State.recordSample_initialized (s : State) (lvl : Level) : (s.recordSample lvl).initialized = s.initialized := rfl
@[simp] theorem State.recordSample_clkCfg (s : State) (lvl : Level) : (s.recordSample lvl).clkCfg = s.clkCfg := rfl
@[simp] theorem State.recordSample_dioCfg (s : State) (lvl : Level) : (s.recordSample lvl).dioCfg = s.dioCfg := rfl
@[simp] theorem State.recordSample_clkOut (s : State) (lvl : Level) : (s.recordSample lvl).clkOut = s.clkOut := rfl
@[simp] theorem State.recordSample_dioOut (s : State) (lvl : Level) : (s.recordSample lvl).dioOut = s.dioOut := rfl
@[simp] theorem State.recordSample_queue (s : State) (lvl : Level) : (s.recordSample lvl).queue = s.queue := rfl
@[simp] theorem State.recordSample_ackLog (s : State) (lvl : Level) : (s.recordSample lvl).ackLog = s.ackLog ++ [ackOf lvl] := rfl
@[simp] theorem State.recordSample_result (s : State) (lvl : Level) : (s.recordSample lvl).result = s.result := rfl
@[simp] theorem State.recordSample_opActive (s : State) (lvl : Level) : (s.recordSample lvl).opActive = s.opActive := rfl
@[simp] theorem State.recordSample_port (s : State) (lvl : Level) : (s.recordSample lvl).port = s.port := rfl
@[simp] theorem State.recordSample_peerDraw (s : State) (lvl : Level) : (s.recordSample lvl).peerDraw = s.peerDraw + 1 := rfl
@[simp] theorem State.recordSample_encOut (s : State) (lvl : Level) : (s.recordSample lvl).encOut = s.encOut := rfl

/-! ### takeWord -/

@[simp] theorem State.takeWord_clkPin (s : State) (w : List PortWord) : (s.takeWord w).clkPin = s.clkPin := rfl
@[simp] theorem State.takeWord_dioPin (s : State) (w : List PortWord) : (s.takeWord w).dioPin = s.dioPin := rfl
@[simp] theorem State.takeWord_brightness (s : State) (w : List PortWord) : (s.takeWord w).brightness = s.brightness := rfl
@[simp] theorem State.takeWord_power (s : State) (w : List PortWord) : (s.takeWord w).power = s.power := rfl
@[simp] theorem State.takeWord_colon (s : State) (w : List PortWord) : (s.takeWord w).colon = s.colon := rfl
@[simp] theorem State.takeWord_initialized (s : State) (w : List PortWord) : (s.takeWord w).initialized = s.initialized := rfl
@[simp] theorem State.takeWord_clkCfg (s : State) (w : List PortWord) : (s.takeWord w).clkCfg = s.clkCfg := rfl
@[simp] theorem State.takeWord_dioCfg (s : State) (w : List PortWord) : (s.takeWord w).dioCfg = s.dioCfg := rfl
@[simp] theorem State.takeWord_clkOut (s : State) (w : List PortWord) : (s.takeWord w).clkOut = s.clkOut := rfl
@[simp] theorem State.takeWord_dioOut (s : State) (w : List PortWord) : (s.takeWord w).dioOut = s.dioOut := rfl
@[simp] theorem State.takeWord_queue (s : State) (w : List PortWord) : (s.takeWord w).queue = s.queue := rfl
@[simp] theorem State.takeWord_ackLog (s : State) (w : List PortWord) : (s.takeWord w).ackLog = s.ackLog := rfl
@[simp] theorem State.takeWord_result (s : State) (w : List PortWord) : (s.takeWord w).result = s.result := rfl
@[simp] theorem State.takeWord_opActive (s : State) (w : List PortWord) : (s.takeWord w).opActive = s.opActive := rfl
@[simp] theorem State.takeWord_port (s : State) (w : List PortWord) : (s.takeWord w).port = w := rfl
@[simp] theorem State.takeWord_peerDraw (s : State) (w : List PortWord) : (s.takeWord w).peerDraw = s.peerDraw := rfl
@[simp] theorem State.takeWord_encOut (s : State) (w : List PortWord) : (s.takeWord w).encOut = s.encOut := rfl

/-! ### encResult -/

@[simp] theorem State.encResult_clkPin (s : State) (bs : List Byte) : (s.encResult bs).clkPin = s.clkPin := rfl
@[simp] theorem State.encResult_dioPin (s : State) (bs : List Byte) : (s.encResult bs).dioPin = s.dioPin := rfl
@[simp] theorem State.encResult_brightness (s : State) (bs : List Byte) : (s.encResult bs).brightness = s.brightness := rfl
@[simp] theorem State.encResult_power (s : State) (bs : List Byte) : (s.encResult bs).power = s.power := rfl
@[simp] theorem State.encResult_colon (s : State) (bs : List Byte) : (s.encResult bs).colon = s.colon := rfl
@[simp] theorem State.encResult_initialized (s : State) (bs : List Byte) : (s.encResult bs).initialized = s.initialized := rfl
@[simp] theorem State.encResult_clkCfg (s : State) (bs : List Byte) : (s.encResult bs).clkCfg = s.clkCfg := rfl
@[simp] theorem State.encResult_dioCfg (s : State) (bs : List Byte) : (s.encResult bs).dioCfg = s.dioCfg := rfl
@[simp] theorem State.encResult_clkOut (s : State) (bs : List Byte) : (s.encResult bs).clkOut = s.clkOut := rfl
@[simp] theorem State.encResult_dioOut (s : State) (bs : List Byte) : (s.encResult bs).dioOut = s.dioOut := rfl
@[simp] theorem State.encResult_queue (s : State) (bs : List Byte) : (s.encResult bs).queue = s.queue := rfl
@[simp] theorem State.encResult_ackLog (s : State) (bs : List Byte) : (s.encResult bs).ackLog = s.ackLog := rfl
@[simp] theorem State.encResult_result (s : State) (bs : List Byte) : (s.encResult bs).result = s.result := rfl
@[simp] theorem State.encResult_opActive (s : State) (bs : List Byte) : (s.encResult bs).opActive = s.opActive := rfl
@[simp] theorem State.encResult_port (s : State) (bs : List Byte) : (s.encResult bs).port = s.port := rfl
@[simp] theorem State.encResult_peerDraw (s : State) (bs : List Byte) : (s.encResult bs).peerDraw = s.peerDraw := rfl
@[simp] theorem State.encResult_encOut (s : State) (bs : List Byte) : (s.encResult bs).encOut = bs := rfl

/-! ### setClkOut -/

@[simp] theorem State.setClkOut_clkPin (s : State) (v : Option Level) : (s.setLineOut .clk v).clkPin = s.clkPin := rfl
@[simp] theorem State.setClkOut_dioPin (s : State) (v : Option Level) : (s.setLineOut .clk v).dioPin = s.dioPin := rfl
@[simp] theorem State.setClkOut_brightness (s : State) (v : Option Level) : (s.setLineOut .clk v).brightness = s.brightness := rfl
@[simp] theorem State.setClkOut_power (s : State) (v : Option Level) : (s.setLineOut .clk v).power = s.power := rfl
@[simp] theorem State.setClkOut_colon (s : State) (v : Option Level) : (s.setLineOut .clk v).colon = s.colon := rfl
@[simp] theorem State.setClkOut_initialized (s : State) (v : Option Level) : (s.setLineOut .clk v).initialized = s.initialized := rfl
@[simp] theorem State.setClkOut_clkCfg (s : State) (v : Option Level) : (s.setLineOut .clk v).clkCfg = s.clkCfg := rfl
@[simp] theorem State.setClkOut_dioCfg (s : State) (v : Option Level) : (s.setLineOut .clk v).dioCfg = s.dioCfg := rfl
@[simp] theorem State.setClkOut_clkOut (s : State) (v : Option Level) : (s.setLineOut .clk v).clkOut = v := rfl
@[simp] theorem State.setClkOut_dioOut (s : State) (v : Option Level) : (s.setLineOut .clk v).dioOut = s.dioOut := rfl
@[simp] theorem State.setClkOut_queue (s : State) (v : Option Level) : (s.setLineOut .clk v).queue = s.queue := rfl
@[simp] theorem State.setClkOut_ackLog (s : State) (v : Option Level) : (s.setLineOut .clk v).ackLog = s.ackLog := rfl
@[simp] theorem State.setClkOut_result (s : State) (v : Option Level) : (s.setLineOut .clk v).result = s.result := rfl
@[simp] theorem State.setClkOut_opActive (s : State) (v : Option Level) : (s.setLineOut .clk v).opActive = s.opActive := rfl
@[simp] theorem State.setClkOut_port (s : State) (v : Option Level) : (s.setLineOut .clk v).port = s.port := rfl
@[simp] theorem State.setClkOut_peerDraw (s : State) (v : Option Level) : (s.setLineOut .clk v).peerDraw = s.peerDraw := rfl
@[simp] theorem State.setClkOut_encOut (s : State) (v : Option Level) : (s.setLineOut .clk v).encOut = s.encOut := rfl

/-! ### setDioOut -/

@[simp] theorem State.setDioOut_clkPin (s : State) (v : Option Level) : (s.setLineOut .dio v).clkPin = s.clkPin := rfl
@[simp] theorem State.setDioOut_dioPin (s : State) (v : Option Level) : (s.setLineOut .dio v).dioPin = s.dioPin := rfl
@[simp] theorem State.setDioOut_brightness (s : State) (v : Option Level) : (s.setLineOut .dio v).brightness = s.brightness := rfl
@[simp] theorem State.setDioOut_power (s : State) (v : Option Level) : (s.setLineOut .dio v).power = s.power := rfl
@[simp] theorem State.setDioOut_colon (s : State) (v : Option Level) : (s.setLineOut .dio v).colon = s.colon := rfl
@[simp] theorem State.setDioOut_initialized (s : State) (v : Option Level) : (s.setLineOut .dio v).initialized = s.initialized := rfl
@[simp] theorem State.setDioOut_clkCfg (s : State) (v : Option Level) : (s.setLineOut .dio v).clkCfg = s.clkCfg := rfl
@[simp] theorem State.setDioOut_dioCfg (s : State) (v : Option Level) : (s.setLineOut .dio v).dioCfg = s.dioCfg := rfl
@[simp] theorem State.setDioOut_clkOut (s : State) (v : Option Level) : (s.setLineOut .dio v).clkOut = s.clkOut := rfl
@[simp] theorem State.setDioOut_dioOut (s : State) (v : Option Level) : (s.setLineOut .dio v).dioOut = v := rfl
@[simp] theorem State.setDioOut_queue (s : State) (v : Option Level) : (s.setLineOut .dio v).queue = s.queue := rfl
@[simp] theorem State.setDioOut_ackLog (s : State) (v : Option Level) : (s.setLineOut .dio v).ackLog = s.ackLog := rfl
@[simp] theorem State.setDioOut_result (s : State) (v : Option Level) : (s.setLineOut .dio v).result = s.result := rfl
@[simp] theorem State.setDioOut_opActive (s : State) (v : Option Level) : (s.setLineOut .dio v).opActive = s.opActive := rfl
@[simp] theorem State.setDioOut_port (s : State) (v : Option Level) : (s.setLineOut .dio v).port = s.port := rfl
@[simp] theorem State.setDioOut_peerDraw (s : State) (v : Option Level) : (s.setLineOut .dio v).peerDraw = s.peerDraw := rfl
@[simp] theorem State.setDioOut_encOut (s : State) (v : Option Level) : (s.setLineOut .dio v).encOut = s.encOut := rfl

/-! ### setClkCfg -/

@[simp] theorem State.setClkCfg_clkPin (s : State) (c : LineCfg) : (s.setLineCfg .clk c).clkPin = s.clkPin := rfl
@[simp] theorem State.setClkCfg_dioPin (s : State) (c : LineCfg) : (s.setLineCfg .clk c).dioPin = s.dioPin := rfl
@[simp] theorem State.setClkCfg_brightness (s : State) (c : LineCfg) : (s.setLineCfg .clk c).brightness = s.brightness := rfl
@[simp] theorem State.setClkCfg_power (s : State) (c : LineCfg) : (s.setLineCfg .clk c).power = s.power := rfl
@[simp] theorem State.setClkCfg_colon (s : State) (c : LineCfg) : (s.setLineCfg .clk c).colon = s.colon := rfl
@[simp] theorem State.setClkCfg_initialized (s : State) (c : LineCfg) : (s.setLineCfg .clk c).initialized = s.initialized := rfl
@[simp] theorem State.setClkCfg_clkCfg (s : State) (c : LineCfg) : (s.setLineCfg .clk c).clkCfg = c := rfl
@[simp] theorem State.setClkCfg_dioCfg (s : State) (c : LineCfg) : (s.setLineCfg .clk c).dioCfg = s.dioCfg := rfl
@[simp] theorem State.setClkCfg_clkOut (s : State) (c : LineCfg) : (s.setLineCfg .clk c).clkOut = s.clkOut := rfl
@[simp] theorem State.setClkCfg_dioOut (s : State) (c : LineCfg) : (s.setLineCfg .clk c).dioOut = s.dioOut := rfl
@[simp] theorem State.setClkCfg_queue (s : State) (c : LineCfg) : (s.setLineCfg .clk c).queue = s.queue := rfl
@[simp] theorem State.setClkCfg_ackLog (s : State) (c : LineCfg) : (s.setLineCfg .clk c).ackLog = s.ackLog := rfl
@[simp] theorem State.setClkCfg_result (s : State) (c : LineCfg) : (s.setLineCfg .clk c).result = s.result := rfl
@[simp] theorem State.setClkCfg_opActive (s : State) (c : LineCfg) : (s.setLineCfg .clk c).opActive = s.opActive := rfl
@[simp] theorem State.setClkCfg_port (s : State) (c : LineCfg) : (s.setLineCfg .clk c).port = s.port := rfl
@[simp] theorem State.setClkCfg_peerDraw (s : State) (c : LineCfg) : (s.setLineCfg .clk c).peerDraw = s.peerDraw := rfl
@[simp] theorem State.setClkCfg_encOut (s : State) (c : LineCfg) : (s.setLineCfg .clk c).encOut = s.encOut := rfl

/-! ### setDioCfg -/

@[simp] theorem State.setDioCfg_clkPin (s : State) (c : LineCfg) : (s.setLineCfg .dio c).clkPin = s.clkPin := rfl
@[simp] theorem State.setDioCfg_dioPin (s : State) (c : LineCfg) : (s.setLineCfg .dio c).dioPin = s.dioPin := rfl
@[simp] theorem State.setDioCfg_brightness (s : State) (c : LineCfg) : (s.setLineCfg .dio c).brightness = s.brightness := rfl
@[simp] theorem State.setDioCfg_power (s : State) (c : LineCfg) : (s.setLineCfg .dio c).power = s.power := rfl
@[simp] theorem State.setDioCfg_colon (s : State) (c : LineCfg) : (s.setLineCfg .dio c).colon = s.colon := rfl
@[simp] theorem State.setDioCfg_initialized (s : State) (c : LineCfg) : (s.setLineCfg .dio c).initialized = s.initialized := rfl
@[simp] theorem State.setDioCfg_clkCfg (s : State) (c : LineCfg) : (s.setLineCfg .dio c).clkCfg = s.clkCfg := rfl
@[simp] theorem State.setDioCfg_dioCfg (s : State) (c : LineCfg) : (s.setLineCfg .dio c).dioCfg = c := rfl
@[simp] theorem State.setDioCfg_clkOut (s : State) (c : LineCfg) : (s.setLineCfg .dio c).clkOut = s.clkOut := rfl
@[simp] theorem State.setDioCfg_dioOut (s : State) (c : LineCfg) : (s.setLineCfg .dio c).dioOut = s.dioOut := rfl
@[simp] theorem State.setDioCfg_queue (s : State) (c : LineCfg) : (s.setLineCfg .dio c).queue = s.queue := rfl
@[simp] theorem State.setDioCfg_ackLog (s : State) (c : LineCfg) : (s.setLineCfg .dio c).ackLog = s.ackLog := rfl
@[simp] theorem State.setDioCfg_result (s : State) (c : LineCfg) : (s.setLineCfg .dio c).result = s.result := rfl
@[simp] theorem State.setDioCfg_opActive (s : State) (c : LineCfg) : (s.setLineCfg .dio c).opActive = s.opActive := rfl
@[simp] theorem State.setDioCfg_port (s : State) (c : LineCfg) : (s.setLineCfg .dio c).port = s.port := rfl
@[simp] theorem State.setDioCfg_peerDraw (s : State) (c : LineCfg) : (s.setLineCfg .dio c).peerDraw = s.peerDraw := rfl
@[simp] theorem State.setDioCfg_encOut (s : State) (c : LineCfg) : (s.setLineCfg .dio c).encOut = s.encOut := rfl

/-! ### emitCons -/

@[simp] theorem State.emitCons_clkPin (s : State) (a : MicroAction) (q : List MicroAction) : (s.emit (a :: q)).clkPin = s.clkPin := rfl
@[simp] theorem State.emitCons_dioPin (s : State) (a : MicroAction) (q : List MicroAction) : (s.emit (a :: q)).dioPin = s.dioPin := rfl
@[simp] theorem State.emitCons_brightness (s : State) (a : MicroAction) (q : List MicroAction) : (s.emit (a :: q)).brightness = s.brightness := rfl
@[simp] theorem State.emitCons_power (s : State) (a : MicroAction) (q : List MicroAction) : (s.emit (a :: q)).power = s.power := rfl
@[simp] theorem State.emitCons_colon (s : State) (a : MicroAction) (q : List MicroAction) : (s.emit (a :: q)).colon = s.colon := rfl
@[simp] theorem State.emitCons_initialized (s : State) (a : MicroAction) (q : List MicroAction) : (s.emit (a :: q)).initialized = s.initialized := rfl
@[simp] theorem State.emitCons_clkCfg (s : State) (a : MicroAction) (q : List MicroAction) : (s.emit (a :: q)).clkCfg = s.clkCfg := rfl
@[simp] theorem State.emitCons_dioCfg (s : State) (a : MicroAction) (q : List MicroAction) : (s.emit (a :: q)).dioCfg = s.dioCfg := rfl
@[simp] theorem State.emitCons_clkOut (s : State) (a : MicroAction) (q : List MicroAction) : (s.emit (a :: q)).clkOut = s.clkOut := rfl
@[simp] theorem State.emitCons_dioOut (s : State) (a : MicroAction) (q : List MicroAction) : (s.emit (a :: q)).dioOut = s.dioOut := rfl
@[simp] theorem State.emitCons_queue (s : State) (a : MicroAction) (q : List MicroAction) : (s.emit (a :: q)).queue = a :: q := rfl
@[simp] theorem State.emitCons_ackLog (s : State) (a : MicroAction) (q : List MicroAction) : (s.emit (a :: q)).ackLog = s.ackLog := rfl
@[simp] theorem State.emitCons_result (s : State) (a : MicroAction) (q : List MicroAction) : (s.emit (a :: q)).result = s.result := rfl
@[simp] theorem State.emitCons_opActive (s : State) (a : MicroAction) (q : List MicroAction) : (s.emit (a :: q)).opActive = true := rfl
@[simp] theorem State.emitCons_port (s : State) (a : MicroAction) (q : List MicroAction) : (s.emit (a :: q)).port = s.port := rfl
@[simp] theorem State.emitCons_peerDraw (s : State) (a : MicroAction) (q : List MicroAction) : (s.emit (a :: q)).peerDraw = s.peerDraw := rfl
@[simp] theorem State.emitCons_encOut (s : State) (a : MicroAction) (q : List MicroAction) : (s.emit (a :: q)).encOut = s.encOut := rfl

/-! ### emit of the empty list, and settle -/

/-- An operation with no micro-action completes at acceptance (43_session_ops.md R190 step 8). -/
@[simp] theorem State.emit_nil (s : State) : s.emit [] = s.complete .ok := rfl

/-- `emit` of a list with a head, as a record. -/
theorem State.emit_cons (s : State) (a : MicroAction) (q : List MicroAction) :
    s.emit (a :: q) = { s with queue := a :: q, opActive := true } := rfl

/-- `emit` of a list that is not empty, as a record. -/
theorem State.emit_of_ne_nil (s : State) {q : List MicroAction} (h : q ≠ []) :
    s.emit q = { s with queue := q, opActive := true } := by
  cases q with
  | nil => exact absurd rfl h
  | cons a q => rfl

/-- `settle` while micro-actions remain. -/
theorem State.settle_of_busy {s : State} (h : s.queue ≠ []) : s.settle = s := by
  cases hq : s.queue with
  | nil => exact absurd hq h
  | cons a q => simp [State.settle, hq]

/-- `settle` at the end of an operation. -/
theorem State.settle_of_active {s : State} (h : s.queue = []) (ha : s.opActive = true) :
    s.settle = s.complete .ok := by simp [State.settle, h, ha]

/-- `settle` at the end of a direct call. -/
theorem State.settle_of_direct {s : State} (h : s.queue = []) (ha : s.opActive = false) : s.settle = s := by
  simp [State.settle, h, ha]

@[simp] theorem State.settle_clkPin (s : State) : s.settle.clkPin = s.clkPin := by
  unfold State.settle; split
  · split <;> rfl
  · rfl

@[simp] theorem State.settle_dioPin (s : State) : s.settle.dioPin = s.dioPin := by
  unfold State.settle; split
  · split <;> rfl
  · rfl

@[simp] theorem State.settle_brightness (s : State) : s.settle.brightness = s.brightness := by
  unfold State.settle; split
  · split <;> rfl
  · rfl

@[simp] theorem State.settle_power (s : State) : s.settle.power = s.power := by
  unfold State.settle; split
  · split <;> rfl
  · rfl

@[simp] theorem State.settle_colon (s : State) : s.settle.colon = s.colon := by
  unfold State.settle; split
  · split <;> rfl
  · rfl

@[simp] theorem State.settle_initialized (s : State) : s.settle.initialized = s.initialized := by
  unfold State.settle; split
  · split <;> rfl
  · rfl

@[simp] theorem State.settle_clkCfg (s : State) : s.settle.clkCfg = s.clkCfg := by
  unfold State.settle; split
  · split <;> rfl
  · rfl

@[simp] theorem State.settle_dioCfg (s : State) : s.settle.dioCfg = s.dioCfg := by
  unfold State.settle; split
  · split <;> rfl
  · rfl

@[simp] theorem State.settle_clkOut (s : State) : s.settle.clkOut = s.clkOut := by
  unfold State.settle; split
  · split <;> rfl
  · rfl

@[simp] theorem State.settle_dioOut (s : State) : s.settle.dioOut = s.dioOut := by
  unfold State.settle; split
  · split <;> rfl
  · rfl

@[simp] theorem State.settle_queue (s : State) : s.settle.queue = s.queue := by
  unfold State.settle; split
  · split <;> rfl
  · rfl

@[simp] theorem State.settle_ackLog (s : State) : s.settle.ackLog = s.ackLog := by
  unfold State.settle; split
  · split <;> rfl
  · rfl

@[simp] theorem State.settle_port (s : State) : s.settle.port = s.port := by
  unfold State.settle; split
  · split <;> rfl
  · rfl

@[simp] theorem State.settle_peerDraw (s : State) : s.settle.peerDraw = s.peerDraw := by
  unfold State.settle; split
  · split <;> rfl
  · rfl

@[simp] theorem State.settle_encOut (s : State) : s.settle.encOut = s.encOut := by
  unfold State.settle; split
  · split <;> rfl
  · rfl

end Sys2Proof.Machine
end

