-- ==== Sys2Proof/Laws/Ops.lean ====
section
/-! SUPPORT. One lemma per shared operation that says everything it can do. -/

namespace Sys2Proof.Machine

variable {α : Type} {s t : State}

@[simp] theorem need_some (r : Reg) (a : α) (k : α → Out) : need r (some a) k = k a := rfl

@[simp] theorem need_none (r : Reg) (k : α → Out) : need r none k = .fault (.noValue r) := rfl

/-- A read answers a next state only from a register that holds a value. -/
theorem need_next {r : Reg} {o : Option α} {k : α → Out} (h : need r o k = .next t) :
    ∃ a, o = some a ∧ k a = .next t := by
  cases o with
  | none => cases h
  | some a => exact ⟨a, rfl, h⟩

@[simp] theorem mapNext_next (f : State → State) : mapNext (.next s) f = .next (f s) := rfl
@[simp] theorem mapNext_fault (r : Fault) (f : State → State) : mapNext (.fault r) f = .fault r := rfl
@[simp] theorem mapNext_refused (r : Refusal) (f : State → State) : mapNext (.refused r) f = .refused r := rfl

/-- `mapNext` answers a next state only from one. -/
theorem mapNext_eq_next {o : Out} {f : State → State} (h : mapNext o f = .next t) : ∃ u, o = .next u ∧ t = f u := by
  cases o with
  | next u => exact ⟨u, rfl, by cases h; rfl⟩
  | fault r => cases h
  | refused r => cases h

/-- Busy is a QUEUE that is not empty. -/
theorem State.isBusy_iff : s.isBusy = true ↔ s.queue ≠ [] := by simp [State.isBusy]

/-- Idle is an empty QUEUE. -/
theorem State.isBusy_false : s.isBusy = false ↔ s.queue = [] := by simp [State.isBusy]

/-- START's precondition. -/
theorem State.linesHigh_iff : s.linesHigh = true ↔ s.clkOut = some true ∧ s.dioOut = some true := by
  simp [State.linesHigh]

/-- The precondition of STOP and WRITE_BYTE. -/
theorem State.clkLow_iff : s.clkLow = true ↔ s.clkOut = some false := by simp [State.clkLow]

/-- `emitFramed` answers a next state only with both lines high, and then it is `emit`'s. -/
theorem emitFramed_next {q : List MicroAction} (h : emitFramed s q = .next t) :
    s.linesHigh = true ∧ t = s.emit q := by
  unfold emitFramed at h
  split at h
  · next hr => exact ⟨hr, by cases h; rfl⟩
  · cases h

/-- Everything acceptance can answer as a next state (43_session_ops.md R190 steps 2 to 8). -/
theorem accept_next {p : Params} {ok : Bool} {body : State → Out} (h : accept p ok body s = .next t) :
    (s.queue ≠ [] ∧ t = s) ∨
    (s.queue = [] ∧ s.initialized = false ∧ t = s.clearAcks.complete (uninitCond p)) ∨
    (s.queue = [] ∧ s.initialized = true ∧ p.strictRange = true ∧ ok = false ∧ t = s.clearAcks.complete .outOfRange) ∨
    (s.queue = [] ∧ s.initialized = true ∧ (p.strictRange = true → ok = true) ∧ body s.clearAcks = .next t) := by
  unfold accept at h
  split at h
  · next hb => exact .inl ⟨State.isBusy_iff.mp hb, by cases h; rfl⟩
  · next hb =>
    have hq : s.queue = [] := State.isBusy_false.mp (by simpa using hb)
    split at h
    · next hi => exact .inr (.inl ⟨hq, by simpa using hi, by cases h; rfl⟩)
    · next hi =>
      split at h
      · next hr =>
        simp at hr
        exact .inr (.inr (.inl ⟨hq, by simpa using hi, hr.2, hr.1, by cases h; rfl⟩))
      · next hr =>
        refine .inr (.inr (.inr ⟨hq, by simpa using hi, fun hp => ?_, h⟩))
        cases hk : ok with
        | true => rfl
        | false => simp [hk, hp] at hr

/-- A busy block holds. -/
theorem accept_busy {p : Params} {ok : Bool} {body : State → Out} (h : s.queue ≠ []) :
    accept p ok body s = .next s := by simp [accept, State.isBusy, h]

/-- An idle, initialized block with no range condition runs the operation's own effect. -/
theorem accept_body {p : Params} {ok : Bool} {body : State → Out} (hq : s.queue = []) (hi : s.initialized = true)
    (hr : p.strictRange = true → ok = true) : accept p ok body s = body s.clearAcks := by
  have : (!ok && p.strictRange) = false := by
    cases hp : p.strictRange with
    | false => simp
    | true => simp [hr hp]
  simp [accept, State.isBusy, hq, hi, this]

/-- Everything a direct call can answer as a next state (40_bus_transport.md R113). -/
theorem callDirect_next {first : Prim} {q : List MicroAction} (h : callDirect first q s = .next t) :
    (s.queue ≠ [] ∧ t = s) ∨ (s.queue = [] ∧ s.ready first = true ∧ t = { s with queue := q, opActive := false }) := by
  unfold callDirect at h
  split at h
  · next hb => exact .inl ⟨State.isBusy_iff.mp hb, by cases h; rfl⟩
  · next hb =>
    split at h
    · next hr => exact .inr ⟨State.isBusy_false.mp (by simpa using hb), hr, by cases h; rfl⟩
    · cases h

/-- A busy block holds a direct call. -/
theorem callDirect_busy {first : Prim} {q : List MicroAction} (h : s.queue ≠ []) : callDirect first q s = .next s := by
  simp [callDirect, State.isBusy, h]

/-- An idle block with the line precondition queues the micro-actions. -/
theorem callDirect_ready {first : Prim} {q : List MicroAction} (hq : s.queue = []) (hr : s.ready first = true) :
    callDirect first q s = .next { s with queue := q, opActive := false } := by
  simp [callDirect, State.isBusy, hq, hr]

/-- A direct call never refuses. -/
theorem callDirect_ne_refused {first : Prim} {q : List MicroAction} (r : Refusal) : callDirect first q s ≠ .refused r := by
  unfold callDirect; split
  · simp
  · split <;> simp

/-- What an accepted render queues (41_command_layer.md R134). -/
theorem emitRender_next {f : Frame} (h : emitRender f s = .next t) :
    ∃ e br, s.power = some e ∧ s.brightness = some br ∧ s.linesHigh = true ∧
      t = s.emit (renderSeq f e (br.val : Int)) := by
  obtain ⟨e, he, h⟩ := need_next h
  obtain ⟨br, hb, h⟩ := need_next h
  obtain ⟨hl, ht⟩ := emitFramed_next h
  exact ⟨e, br, he, hb, hl, ht⟩

/-- What an accepted SHOW_NUMBER or SHOW_TEXT queues (43_session_ops.md R195, R198). -/
theorem emitColoned_next {f : Frame} (h : emitColoned f s = .next t) :
    ∃ c e br, s.colon = some c ∧ s.power = some e ∧ s.brightness = some br ∧ s.linesHigh = true ∧
      t = s.emit (renderSeq (applyColon f c) e (br.val : Int)) := by
  obtain ⟨c, hc, h⟩ := need_next h
  obtain ⟨e, br, he, hb, hl, ht⟩ := emitRender_next h
  exact ⟨c, e, br, hc, he, hb, hl, ht⟩

/-- What an accepted SET_BRIGHTNESS does (43_session_ops.md R193). -/
theorem emitLevel_next {l : Fin 8} {e : Bool} (h : emitLevel l e s = .next t) :
    s.linesHigh = true ∧ t = (s.setLevel l e).emit (cmdCtrlSeq e (l.val : Int)) := emitFramed_next h

/-- What SET_COLON does (43_session_ops.md R199). -/
theorem emitColonFlag_eq (c : Bool) : emitColonFlag c s = .next ((s.setColonFlag c).complete .ok) := rfl

/-- Everything a micro-action can answer as a next state (40_bus_transport.md R101 to R105). -/
theorem perform_next {a : MicroAction} (h : perform a s = .next t) :
    (∃ l v, a = .drive l v ∧ (s.linePin l).isSome = true ∧ s.lineCfg l = .pullUpIO ∧ t = s.setLineOut l (some v)) ∨
    (a = .wait ∧ t = s) ∨
    (∃ out, a = .sample ∧ s.dioPin.isSome = true ∧ s.dioOut = some out ∧
      t = s.recordSample (busLevel out (Config.peerPull s.peerDraw))) ∨
    (∃ l, a = .configPullUp l ∧ (s.linePin l).isSome = true ∧ t = (s.setLineCfg l .pullUpIO).setLineOut l none) := by
  cases a with
  | drive l v =>
    obtain ⟨pin, hp, h⟩ := need_next h
    split at h
    · cases h
    · next hc => exact .inl ⟨l, v, rfl, by simp [hp], hc, by cases h; rfl⟩
  | wait => exact .inr (.inl ⟨rfl, by cases h; rfl⟩)
  | sample =>
    obtain ⟨pin, hp, h⟩ := need_next h
    obtain ⟨out, ho, h⟩ := need_next h
    exact .inr (.inr (.inl ⟨out, rfl, by simp [hp], ho, by cases h; rfl⟩))
  | configPullUp l =>
    obtain ⟨pin, hp, h⟩ := need_next h
    exact .inr (.inr (.inr ⟨l, rfl, by simp [hp], by cases h; rfl⟩))

/-- No micro-action refuses. -/
theorem perform_ne_refused (a : MicroAction) (r : Refusal) : perform a s ≠ .refused r := by
  cases a with
  | drive l v =>
    show need _ _ _ ≠ _
    cases s.linePin l with
    | none => simp
    | some p => cases s.lineCfg l <;> simp
  | wait => exact fun h => by cases h
  | sample =>
    show need _ _ _ ≠ _
    cases s.dioPin with
    | none => simp
    | some p => cases s.dioOut <;> simp
  | configPullUp l =>
    show need _ _ _ ≠ _
    cases s.linePin l <;> simp

/-- The sequencer's step on a busy block (10_state.md R30). -/
theorem advance_cons {a : MicroAction} {rest : List MicroAction} (h : s.queue = a :: rest) :
    advance s = mapNext (perform a { s with queue := rest }) State.settle := by simp [advance, h]

/-- An idle block waits. -/
theorem advance_idle (h : s.queue = []) : advance s = .next s := by simp [advance, h]

/-- What the sequencer's step of a busy block can answer as a next state. -/
theorem advance_next {a : MicroAction} {rest : List MicroAction} (hq : s.queue = a :: rest) (h : advance s = .next t) :
    ∃ u, perform a { s with queue := rest } = .next u ∧ t = u.settle :=
  mapNext_eq_next (advance_cons hq ▸ h)

/-- What a step can answer as a next state: the sequencer's step, or the execution of the presented word by an idle
block. -/
theorem step_next (h : step s = .next t) :
    advance s = .next t ∨
    ∃ w rest i, s.port = w :: rest ∧ decode w = .ok i ∧ s.queue = [] ∧ exec i (s.takeWord rest) = .next t := by
  unfold step at h
  split at h
  · exact .inl h
  · next w rest hp =>
    split at h
    · cases h
    · next i hd =>
      split at h
      · next hb =>
        cases ho : exec i s with
        | next u => exact .inl (by simpa [holdWhileBusy, ho] using h)
        | fault r => exact .inl (by simpa [holdWhileBusy, ho] using h)
        | refused r => simp [holdWhileBusy, ho] at h
      · next hb => exact .inr ⟨w, rest, i, hp, hd, State.isBusy_false.mp (by simpa using hb), h⟩

end Sys2Proof.Machine
end

