-- ==== Sys2Proof/Laws/PerInstr.lean ====
section
/-! SUPPORT. Per-instruction facts about the encoding: the word of every instruction has the bits its row of
spec/opcode_table.json fixes. -/

namespace Sys2Proof.Laws.RowBits

/-- The `match` and `mask` of an instruction's row in spec/opcode_table.json; `none` for the INTERNAL and FUNC rows, which
have no bits. -/
def rowBits : Instr → Option (Nat × Nat)
  | .init _ _ => some (0x0, 0xF)
  | .setBrightness _ _ => some (0x1, 0xF)
  | .clear => some (0x2, 0xF)
  | .showNumber _ _ => some (0x3, 0xF)
  | .showTime _ _ => some (0x4, 0xF)
  | .showRaw _ _ _ _ => some (0x5, 0xF)
  | .showText _ => some (0x6, 0xF)
  | .setColon _ => some (0x7, 0xF)
  | .reservedReq _ => some (0x8, 0x8)
  | .cmdDataAuto => some (0x40, 0xFF)
  | .cmdDataFixed => some (0x44, 0xFF)
  | .cmdAddr _ _ => some (0xC0, 0xFC)
  | .cmdCtrl _ _ => some (0x80, 0xF0)
  | .start | .stop | .writeByte _ | .cmdData _ | .cmdAddrData _ _ | .cmdCtrlTx _ _ | .render _ _ _
  | .encDigit _ | .encChar _ | .encNumber _ _ | .applyColon _ _ | .encTime _ _ | .encText _ => none

/-- The bits the table numbers in a word: the op-select code of a request, the first byte of a transaction. -/
def tableBits : PortWord → Option Nat
  | .req code _ => some code.toNat
  | .bus (b :: _) => some b.toNat
  | .bus [] => none
  | .call _ _ => none

/-- The word of a well-formed instruction has the bits its row fixes, and none where its row has none. -/
def Statement (i : Instr) : Prop :=
  i.wellFormed = true →
    match rowBits i, tableBits (encode i) with
    | some (m, k), some w => w &&& k = m
    | none, none => True
    | some _, none => False
    | none, some _ => False

theorem init (clk dio : PinId) : Statement (.init clk dio) := fun _ => rfl
theorem setBrightness (l : Int) (e : Bool) : Statement (.setBrightness l e) := fun _ => rfl
theorem clear : Statement .clear := fun _ => rfl
theorem showNumber (v : Int) (z : Bool) : Statement (.showNumber v z) := fun _ => rfl
theorem showTime (m s : Int) : Statement (.showTime m s) := fun _ => rfl
theorem showRaw (a b c d : Int) : Statement (.showRaw a b c d) := fun _ => rfl
theorem showText (t : List Char) : Statement (.showText t) := fun _ => rfl
theorem setColon (c : Bool) : Statement (.setColon c) := fun _ => rfl

theorem reservedReq (code : BitVec 4) : Statement (.reservedReq code) := fun h => by
  have key : ∀ c : BitVec 4, c.msb = true → c.toNat &&& 0x8 = 0x8 := by decide
  exact key code h

theorem cmdDataAuto : Statement .cmdDataAuto := fun _ => rfl
theorem cmdDataFixed : Statement .cmdDataFixed := fun _ => rfl

theorem cmdAddr (a : BitVec 2) (dd : Byte) : Statement (.cmdAddr a dd) := fun _ => by
  have key : ∀ a : BitVec 2, (0b110000#6 ++ a).toNat &&& 0xFC = 0xC0 := by decide
  exact key a

theorem cmdCtrl (e : Bool) (b : BitVec 3) : Statement (.cmdCtrl e b) := fun _ => by
  have key : ∀ (e : Bool) (b : BitVec 3), (0b1000#4 ++ BitVec.ofBool e ++ b).toNat &&& 0xF0 = 0x80 := by decide
  exact key e b

theorem start : Statement .start := fun _ => trivial
theorem stop : Statement .stop := fun _ => trivial
theorem writeByte (b : Byte) : Statement (.writeByte b) := fun _ => trivial
theorem cmdData (m : AddrMode) : Statement (.cmdData m) := fun _ => trivial
theorem cmdAddrData (a : Int) (d : Byte) : Statement (.cmdAddrData a d) := fun _ => trivial
theorem cmdCtrlTx (e : Bool) (br : Int) : Statement (.cmdCtrlTx e br) := fun _ => trivial
theorem render (f : Frame) (e : Bool) (br : Int) : Statement (.render f e br) := fun _ => trivial
theorem encDigit (d : Int) : Statement (.encDigit d) := fun _ => trivial
theorem encChar (c : Char) : Statement (.encChar c) := fun _ => trivial
theorem encNumber (v : Int) (z : Bool) : Statement (.encNumber v z) := fun _ => trivial
theorem applyColon (f : Frame) (c : Bool) : Statement (.applyColon f c) := fun _ => trivial
theorem encTime (m s : Int) : Statement (.encTime m s) := fun _ => trivial
theorem encText (t : List Char) : Statement (.encText t) := fun _ => trivial

end Sys2Proof.Laws.RowBits
end

