-- ==== Sys2Proof/Laws/Pins.lean ====
section
/-! SUPPORT. A pin is only a name (00_scope.md R6: PinId is an abstract type with decidable equality; log 3): the block
commutes with every renaming of pins that keeps different pins different. So nothing about the block depends on what
PinId holds, and what the model says of its own names holds of the pins of any other type put in their place. -/

namespace Sys2Proof.Laws.Pins

open Sys2Proof.Machine

variable {f : PinId → PinId}

/-- An operand with its pin renamed. -/
def operand (f : PinId → PinId) : Operand → Operand
  | .pin p => .pin (f p)
  | .int v => .int v
  | .bool b => .bool b
  | .text t => .text t
  | .char c => .char c
  | .byte b => .byte b
  | .frame g => .frame g
  | .mode m => .mode m
  | .other => .other

/-- A presented word with its pins renamed. -/
def word (f : PinId → PinId) : PortWord → PortWord
  | .req code ops => .req code (ops.map (operand f))
  | .bus bytes => .bus bytes
  | .call sub ops => .call sub (ops.map (operand f))

/-- An instruction with its pins renamed: only INIT names pins (30_encoding.md R78). -/
def instr (f : PinId → PinId) (i : Instr) : Instr :=
  match i with
  | .init clk dio => .init (f clk) (f dio)
  | .setBrightness _ _ | .clear | .showNumber _ _ | .showTime _ _ | .showRaw _ _ _ _ | .showText _ | .setColon _
  | .reservedReq _ | .cmdDataAuto | .cmdDataFixed | .cmdAddr _ _ | .cmdCtrl _ _
  | .start | .stop | .writeByte _ | .cmdData _ | .cmdAddrData _ _ | .cmdCtrlTx _ _ | .render _ _ _
  | .encDigit _ | .encChar _ | .encNumber _ _ | .applyColon _ _ | .encTime _ _ | .encText _ => i

/-- A state with its pins renamed. -/
def state (f : PinId → PinId) (s : State) : State :=
  { s with clkPin := s.clkPin.map f, dioPin := s.dioPin.map f, port := s.port.map (word f) }

/-- An outcome with the pins of its next state renamed. -/
def out (f : PinId → PinId) (o : Out) : Out := mapNext o (state f)

/-! ### Decoding -/

theorem operand_eq_pin {o : Operand} {q : PinId} : operand f o = .pin q ↔ ∃ p, o = .pin p ∧ f p = q := by
  cases o <;> simp [operand]

theorem operand_eq_int {o : Operand} {v : Int} : operand f o = .int v ↔ o = .int v := by cases o <;> simp [operand]
theorem operand_eq_bool {o : Operand} {b : Bool} : operand f o = .bool b ↔ o = .bool b := by cases o <;> simp [operand]
theorem operand_eq_text {o : Operand} {t : List Char} : operand f o = .text t ↔ o = .text t := by
  cases o <;> simp [operand]
theorem operand_eq_char {o : Operand} {c : Char} : operand f o = .char c ↔ o = .char c := by cases o <;> simp [operand]
theorem operand_eq_byte {o : Operand} {b : Byte} : operand f o = .byte b ↔ o = .byte b := by cases o <;> simp [operand]
theorem operand_eq_frame {o : Operand} {g : Frame} : operand f o = .frame g ↔ o = .frame g := by
  cases o <;> simp [operand]
theorem operand_eq_mode {o : Operand} {m : AddrMode} : operand f o = .mode m ↔ o = .mode m := by
  cases o <;> simp [operand]

/-- What a decoder answers, with its pins renamed. -/
def answer (f : PinId → PinId) : Except Refusal Instr → Except Refusal Instr
  | .ok i => .ok (instr f i)
  | .error r => .error r

/-- Decoding a request commutes with renaming. -/
theorem decodeReq_rename (code : BitVec 4) (ops : List Operand) :
    decodeReq code (ops.map (operand f)) = answer f (decodeReq code ops) := by
  unfold decodeReq
  split <;> try rfl
  all_goals
    split
    · next h =>
      simp only [List.map_eq_cons_iff, List.map_eq_nil_iff, operand_eq_pin, operand_eq_int, operand_eq_bool,
        operand_eq_text, existsAndEq, and_true, true_and] at h
      first
      | (subst h; rfl)
      | (obtain ⟨p, q, rfl, rfl, rfl⟩ := h; rfl)
    · next h =>
      split
      · first
        | exact (h rfl).elim
        | exact (h _ rfl).elim
        | exact (h _ _ rfl).elim
        | exact (h _ _ _ _ rfl).elim
      · rfl

/-- Decoding a direct call commutes with renaming: no direct call names a pin. -/
theorem decodeCall_rename (sub : Sub) (ops : List Operand) :
    decodeCall sub (ops.map (operand f)) = answer f (decodeCall sub ops) := by
  unfold decodeCall
  cases sub
  all_goals
    dsimp only
    split
    · next h =>
      simp only [List.map_eq_cons_iff, List.map_eq_nil_iff, operand_eq_int, operand_eq_bool, operand_eq_text,
        operand_eq_char, operand_eq_byte, operand_eq_frame, operand_eq_mode, existsAndEq,
        and_true] at h
      subst h; rfl
    · next h =>
      split
      · first
        | exact (h rfl).elim
        | exact (h _ rfl).elim
        | exact (h _ _ rfl).elim
        | exact (h _ _ _ rfl).elim
      · rfl

/-- Decoding a transaction names no pin. -/
theorem decodeBus_rename (bytes : List Byte) : decodeBus bytes = answer f (decodeBus bytes) := by
  cases bytes with
  | nil => rfl
  | cons b rest =>
    have hone : ∀ i, firstByte b = some (.one i) → instr f i = i := by
      intro i h
      unfold firstByte at h
      split at h
      · cases h; rfl
      · split at h
        · cases h; rfl
        · split at h
          · cases h
          · split at h
            · cases h; rfl
            · cases h
    simp only [decodeBus]
    cases h : firstByte b with
    | none => rfl
    | some c =>
      rcases c with i | a
      · cases rest with
        | nil => simp only [answer, hone i h]
        | cons _ _ => rfl
      · rcases rest with _ | ⟨dd, _ | _⟩ <;> rfl

/-- Decoding commutes with renaming. -/
theorem decode_rename (w : PortWord) : decode (word f w) = answer f (decode w) := by
  cases w with
  | req code ops => exact decodeReq_rename code ops
  | bus bytes => exact decodeBus_rename bytes
  | call sub ops => exact decodeCall_rename sub ops

/-! ### Instructions -/

@[simp] theorem out_next (s : State) : out f (.next s) = .next (state f s) := rfl
@[simp] theorem out_fault (r : Fault) : out f (.fault r) = .fault r := rfl
@[simp] theorem out_refused (r : Refusal) : out f (.refused r) = .refused r := rfl

/-- A read of a register that names no pin commutes with renaming if what follows it does. -/
theorem need_rename {α : Type} (r : Reg) (o : Option α) {k k' : α → Out} (h : ∀ a, k' a = out f (k a)) :
    need r o k' = out f (need r o k) := by
  cases o with
  | none => rfl
  | some a => exact h a

theorem emit_rename (s : State) (q : List MicroAction) : (state f s).emit q = state f (s.emit q) := by cases q <;> rfl

theorem emitFramed_rename (s : State) (q : List MicroAction) : emitFramed (state f s) q = out f (emitFramed s q) := by
  unfold emitFramed
  rw [show (state f s).ready .start = s.ready .start from rfl]
  split
  · rw [emit_rename]; rfl
  · rfl

theorem emitRender_rename (g : Frame) (s : State) : emitRender g (state f s) = out f (emitRender g s) :=
  need_rename _ _ fun _ => need_rename _ _ fun _ => emitFramed_rename _ _

theorem emitColoned_rename (g : Frame) (s : State) : emitColoned g (state f s) = out f (emitColoned g s) :=
  need_rename _ _ fun _ => emitRender_rename _ _

/-- Acceptance commutes with renaming if the operation's own effect does. -/
theorem accept_rename (p : Params) (ok : Bool) {body : State → Out} (s : State)
    (h : ∀ s, body (state f s) = out f (body s)) : accept p ok body (state f s) = out f (accept p ok body s) := by
  unfold accept
  rw [show (state f s).isBusy = s.isBusy from rfl, show (state f s).initialized = s.initialized from rfl]
  split
  · rfl
  · split
    · rfl
    · split
      · rfl
      · exact h s.clearAcks

theorem callDirect_rename (first : Prim) (q : List MicroAction) (s : State) :
    callDirect first q (state f s) = out f (callDirect first q s) := by
  unfold callDirect
  rw [show (state f s).isBusy = s.isBusy from rfl, show (state f s).ready first = s.ready first by cases first <;> rfl]
  split
  · rfl
  · split <;> rfl

/-- INIT, the one instruction that compares pins, commutes with a renaming that keeps different pins different. -/
theorem opInit_rename (hf : Function.Injective f) (p : Params) (clk dio : PinId) (s : State) :
    opInit p (f clk) (f dio) (state f s) = out f (opInit p clk dio s) := by
  unfold opInit
  rw [show (state f s).isBusy = s.isBusy from rfl]
  by_cases h : clk = dio
  · subst h; simp
  · rw [if_neg (fun e => h (hf e)), if_neg h]
    split
    · rfl
    · rw [out_next, ← emit_rename]; rfl

/-- Every instruction commutes with a renaming that keeps different pins different. -/
theorem exec_rename (hf : Function.Injective f) (i : Instr) (s : State) :
    exec (instr f i) (state f s) = out f (exec i s) := by
  cases i with
  | init clk dio => exact opInit_rename hf _ _ _ _
  | setBrightness level enabled => exact accept_rename _ _ _ fun s => emitFramed_rename (s.setLevel _ _) _
  | clear => exact accept_rename _ _ _ fun _ => emitRender_rename _ _
  | showNumber value lz => exact accept_rename _ _ _ fun _ => emitColoned_rename _ _
  | showTime m sec => exact accept_rename _ _ _ fun _ => emitRender_rename _ _
  | showRaw b0 b1 b2 b3 => exact accept_rename _ _ _ fun _ => emitRender_rename _ _
  | showText text => exact accept_rename _ _ _ fun _ => emitColoned_rename _ _
  | setColon c => exact accept_rename _ _ _ fun _ => rfl
  | reservedReq code => rfl
  | cmdDataAuto => exact callDirect_rename _ _ _
  | cmdDataFixed => exact callDirect_rename _ _ _
  | cmdAddr a dd => exact callDirect_rename _ _ _
  | cmdCtrl e b => exact callDirect_rename _ _ _
  | start => exact callDirect_rename _ _ _
  | stop => exact callDirect_rename _ _ _
  | writeByte b => exact callDirect_rename _ _ _
  | cmdData mode => exact callDirect_rename _ _ _
  | cmdAddrData a d => exact callDirect_rename _ _ _
  | cmdCtrlTx e br => exact callDirect_rename _ _ _
  | render g e br => exact callDirect_rename _ _ _
  | encDigit d => rfl
  | encChar c => rfl
  | encNumber value lz => rfl
  | applyColon g c => rfl
  | encTime m sec => rfl
  | encText t => rfl

/-! ### Steps -/

/-- A micro-action reads that a pin is there, never which one. -/
theorem perform_rename (a : MicroAction) (s : State) : perform a (state f s) = out f (perform a s) := by
  obtain ⟨clkPin, dioPin⟩ := s
  cases a with
  | drive l v =>
    cases l
    · cases clkPin with
      | none => rfl
      | some p =>
        simp only [perform, performDrive, State.linePin, State.lineCfg, state, Option.map, need_some]
        split <;> rfl
    · cases dioPin with
      | none => rfl
      | some p =>
        simp only [perform, performDrive, State.linePin, State.lineCfg, state, Option.map, need_some]
        split <;> rfl
  | wait => rfl
  | sample =>
    cases dioPin with
    | none => rfl
    | some p => exact need_rename _ _ fun _ => rfl
  | configPullUp l =>
    cases l
    · cases clkPin <;> rfl
    · cases dioPin <;> rfl

theorem settle_rename (s : State) : (state f s).settle = state f s.settle := by
  unfold State.settle
  rw [show (state f s).queue = s.queue from rfl, show (state f s).opActive = s.opActive from rfl]
  split
  · split <;> rfl
  · rfl

theorem advance_rename (s : State) : advance (state f s) = out f (advance s) := by
  unfold advance
  rw [show (state f s).queue = s.queue from rfl]
  split
  · rfl
  · next a rest _ =>
    rw [show ({ state f s with queue := rest } : State) = state f { s with queue := rest } from rfl, perform_rename]
    cases perform a { s with queue := rest } with
    | next u => simp [settle_rename]
    | fault r => rfl
    | refused r => rfl

/-- Every step commutes with a renaming of pins that keeps different pins different (R6; log 3). -/
theorem step_rename (hf : Function.Injective f) (s : State) : step (state f s) = out f (step s) := by
  unfold step
  rw [show (state f s).port = s.port.map (word f) from rfl]
  cases s.port with
  | nil => exact advance_rename s
  | cons w rest =>
    simp only [List.map_cons, decode_rename]
    cases decode w with
    | error r => rfl
    | ok i =>
      simp only [answer]
      rw [show (state f s).isBusy = s.isBusy from rfl]
      split
      · rw [exec_rename hf]
        cases exec i s with
        | next u => exact advance_rename s
        | fault r => exact advance_rename s
        | refused r => rfl
      · rw [show (state f s).takeWord (rest.map (word f)) = state f (s.takeWord rest) from rfl, exec_rename hf]

end Sys2Proof.Laws.Pins
end

