-- ==== Sys2Proof/Laws/Run.lean ====
section
/-! SUPPORT. Runs of the machine, one step at a time, and the lines along a micro-action list. -/

namespace Sys2Proof.Machine

/-- No step: the state itself. -/
theorem run_zero (s : State) : Host.Core.run Sys2Proof.core 0 s = .next s := rfl

/-- One step of a run, in general. -/
theorem run_succ (M : Host.Core) (k : Nat) (s : M.State) :
    M.run (k + 1) s = match M.step s with
      | .next t => M.run k t
      | .fault r => .fault r
      | .refused r => .refused r := rfl

/-- A run whose first step answers a next state goes on from it. -/
theorem run_of_next {s t : State} (k : Nat) (h : step s = .next t) :
    Host.Core.run Sys2Proof.core (k + 1) s = Host.Core.run Sys2Proof.core k t := by
  have hr := run_succ Sys2Proof.core k s
  have hs : Sys2Proof.core.step s = .next t := h
  rw [hs] at hr
  exact hr

/-- A run whose first step faults faults. -/
theorem run_of_fault {s : State} {r : Fault} (k : Nat) (h : step s = .fault r) :
    Host.Core.run Sys2Proof.core (k + 1) s = .fault r := by
  have hr := run_succ Sys2Proof.core k s
  have hs : Sys2Proof.core.step s = .fault r := h
  rw [hs] at hr
  exact hr

/-- A run whose first step is refused is refused. -/
theorem run_of_refused {s : State} {r : Refusal} (k : Nat) (h : step s = .refused r) :
    Host.Core.run Sys2Proof.core (k + 1) s = .refused r := by
  have hr := run_succ Sys2Proof.core k s
  have hs : Sys2Proof.core.step s = .refused r := h
  rw [hs] at hr
  exact hr

end Sys2Proof.Machine

namespace Sys2Proof.Safety

open Sys2Proof.Machine

/-- The lines after two lists in a row. -/
theorem Lines.afterAll_append (L : Lines) (a b : List MicroAction) :
    L.afterAll (a ++ b) = (L.afterAll a).bind fun M => M.afterAll b := by
  induction a generalizing L with
  | nil => rfl
  | cons x a ih =>
    simp only [List.cons_append, Lines.afterAll]
    cases L.after x with
    | none => rfl
    | some M => exact ih M

end Sys2Proof.Safety
end

