-- ==== Sys2Proof/Tests/Slice0.lean ====
section
/-! SUPPORT. The model's own tests: ill-formed terms, words written out from the spec's encodings, the spec's test
vectors (95_test_vectors.md), each on one step, and a witness for the hypotheses of every obligation. -/

namespace Sys2Proof.Tests

open Sys2Proof.Machine
open Sys2Proof.Safety

/-! ### Small states and readers -/

/-- The parameters 95_test_vectors.md assumes. -/
def defaults : Params := ⟨.four, .noop, false, false, defaultLetters⟩

/-- The same with STRICT_RANGE. -/
def strict : Params := ⟨.four, .noop, true, false, defaultLetters⟩

/-- The same with HEX_DIGITS and UNINIT_POLICY = FAULT. -/
def hexFault : Params := ⟨.three, .fault, false, true, defaultLetters⟩

/-- The start state of 95_test_vectors.md section 2.4: after `init(P0, P1)`, idle. -/
def ready : State :=
  { State.reset with
    clkPin := some (programPin 0), dioPin := some (programPin 1), brightness := some 4, power := some true, colon := some false
    initialized := true, clkCfg := .pullUpIO, dioCfg := .pullUpIO, clkOut := some true, dioOut := some true }

/-- The start state with the colon flag set. -/
def readyColon : State := { ready with colon := some true }

/-- Between START and STOP: CLK low. -/
def clkLow : State := { ready with clkOut := some false, dioOut := some false }

/-- Busy with one sample left. -/
def sampling : State := { ready with queue := [.sample], opActive := true }

/-- Busy with two waits left. -/
def waiting : State := { ready with queue := [.wait, .wait], opActive := true }

/-- The transactions an outcome's queue puts on the wire. -/
def sent (o : Out) : Option (List (List Byte)) :=
  match o with
  | .next s => some (wireTransactions s.queue)
  | .fault _ => none
  | .refused _ => none

/-- The condition code of an outcome that completes at once. -/
def condOf (o : Out) : Option Cond :=
  match o with
  | .next s => if s.queue = [] then s.result.map (·.cond) else none
  | .fault _ => none
  | .refused _ => none

/-- The session values of an outcome: BRIGHTNESS, POWER, COLON. -/
def sessionOf (o : Out) : Option (Option (Fin 8) × Option Bool × Option Bool) :=
  match o with
  | .next s => some (s.brightness, s.power, s.colon)
  | .fault _ => none
  | .refused _ => none

/-- The fault of an outcome. -/
def faultOf (o : Out) : Option Fault :=
  match o with
  | .next _ => none
  | .fault r => some r
  | .refused _ => none

/-- The refusal of an outcome. -/
def refusalOf (o : Out) : Option Refusal :=
  match o with
  | .next _ => none
  | .fault _ => none
  | .refused r => some r

/-! ### WellFormed: an ill-formed term for each check -/

/-- R192, R236: `init(P0, P0)`. -/
theorem test_wellFormed_same_pins : (Instr.init (programPin 0) (programPin 0)).wellFormed = false := by decide

/-- R79: 0x7 is no reserved code. -/
theorem test_wellFormed_code_not_reserved : (Instr.reservedReq 0x7).wellFormed = false := by decide

/-- The well-formed side of both checks. -/
theorem test_wellFormed_accepts :
    (Instr.init (programPin 0) (programPin 1)).wellFormed = true ∧ (Instr.reservedReq 0x8).wellFormed = true := by decide

/-! ### Decoding words written out from 30_encoding.md R72 to R78 -/

/-- R78, the REQ rows. -/
theorem test_decode_requests :
    decode (.req 0b0000 [.pin (programPin 1), .pin (programPin 0)]) = .ok (.init (programPin 1) (programPin 0)) ∧
    decode (.req 0b0001 [.int (-3), .bool true]) = .ok (.setBrightness (-3) true) ∧
    decode (.req 0b0010 []) = .ok .clear ∧
    decode (.req 0b0011 [.int 42, .bool true]) = .ok (.showNumber 42 true) ∧
    decode (.req 0b0100 [.int 5, .int 9]) = .ok (.showTime 5 9) ∧
    decode (.req 0b0101 [.int 1, .int 2, .int 3, .int 4]) = .ok (.showRaw 1 2 3 4) ∧
    decode (.req 0b0110 [.text ['H', 'i']]) = .ok (.showText ['H', 'i']) ∧
    decode (.req 0b0111 [.bool true]) = .ok (.setColon true) ∧
    decode (.req 0b1001 []) = .ok (.reservedReq 0x9) := by decide

/-- R72, R73, R74: the BUS rows. -/
theorem test_decode_transactions :
    decode (.bus [0b01000000]) = .ok .cmdDataAuto ∧
    decode (.bus [0b01000100]) = .ok .cmdDataFixed ∧
    decode (.bus [0b11000010, 0x4F]) = .ok (.cmdAddr 0b10 0x4F) ∧
    decode (.bus [0b10001011]) = .ok (.cmdCtrl true 0b011) ∧
    decode (.bus [0b10000110]) = .ok (.cmdCtrl false 0b110) := by decide

/-- R81: the INTERNAL and FUNC rows, by name. -/
theorem test_decode_calls :
    decode (.call .start []) = .ok .start ∧
    decode (.call .stop []) = .ok .stop ∧
    decode (.call .writeByte [.byte 0xA5]) = .ok (.writeByte 0xA5) ∧
    decode (.call .cmdData [.mode .fixed]) = .ok (.cmdData .fixed) ∧
    decode (.call .cmdAddrData [.int 5, .byte 0x06]) = .ok (.cmdAddrData 5 0x06) ∧
    decode (.call .cmdCtrlTx [.bool true, .int 9]) = .ok (.cmdCtrlTx true 9) ∧
    decode (.call .render [.frame ⟨1, 2, 3, 4⟩, .bool false, .int 7]) = .ok (.render ⟨1, 2, 3, 4⟩ false 7) ∧
    decode (.call .encDigit [.int 8]) = .ok (.encDigit 8) ∧
    decode (.call .encChar [.char '-']) = .ok (.encChar '-') ∧
    decode (.call .encNumber [.int (-5), .bool false]) = .ok (.encNumber (-5) false) ∧
    decode (.call .applyColon [.frame ⟨0, 0, 0x40, 0x6D⟩, .bool true]) = .ok (.applyColon ⟨0, 0, 0x40, 0x6D⟩ true) ∧
    decode (.call .encTime [.int 12, .int 34]) = .ok (.encTime 12 34) ∧
    decode (.call .encText [.text ['K', '9']]) = .ok (.encText ['K', '9']) := by decide

/-- R76, R77, R79: what the decoder refuses, by name. -/
theorem test_decode_refuses :
    decode (.req 0x3 [.other, .bool false]) = .error .mistypedOperand ∧
    decode (.bus [0x41]) = .error .notBusCommand ∧
    decode (.bus [0xC4, 0x00]) = .error .notBusCommand ∧
    decode (.bus [0x00]) = .error .notBusCommand ∧
    decode (.bus [0x90]) = .error .notBusCommand ∧
    decode (.bus [0x40, 0x00]) = .error .transactionLength ∧
    decode (.bus [0xC0]) = .error .transactionLength ∧
    decode (.bus []) = .error .transactionLength ∧
    decode (.call .stop [.int 0]) = .error .mistypedOperand := by decide

/-- The rows of spec/opcode_table.json by their own bits. -/
theorem test_tableWord_rows :
    (List.range 16).map (decodeTableWord 8) =
      [some (.init (programPin 0) (programPin 1)), some (.setBrightness 0 false), some .clear, some (.showNumber 0 false),
       some (.showTime 0 0), some (.showRaw 0 0 0 0), some (.showText []), some (.setColon false),
       some (.reservedReq 8), some (.reservedReq 9), some (.reservedReq 10), some (.reservedReq 11),
       some (.reservedReq 12), some (.reservedReq 13), some (.reservedReq 14), some (.reservedReq 15)] ∧
    decodeTableWord 8 0x40 = some .cmdDataAuto ∧ decodeTableWord 8 0x44 = some .cmdDataFixed ∧
    decodeTableWord 8 0xC3 = some (.cmdAddr 3 0x00) ∧ decodeTableWord 16 0x5BC1 = some (.cmdAddr 1 0x5B) ∧
    decodeTableWord 8 0x8C = some (.cmdCtrl true 4) ∧ decodeTableWord 8 0x48 = none := by decide

/-- A word placed for the next step is the word that step runs: code 0x9 and `init(P0, P1)` from reset. -/
theorem test_withFetchWord :
    refusalOf (step (State.reset.withFetchWord 8 0x9)) = some (.reservedCode 0x9) ∧
    sessionOf (step (ready.withFetchWord 8 0x7)) = some (some 4, some true, some false) := by
  constructor <;> rfl

/-! ### The encoder (95_test_vectors.md 2.3) -/

/-- ENC_DIGIT, the row with HEX_DIGITS = false. -/
theorem test_encDigit_decimal :
    [-1, 0, 1, 2, 3, 4, 5, 6, 7, 8, 9, 10, 15, 16].map (encDigit defaults) =
      [0x00, 0x3F, 0x06, 0x5B, 0x4F, 0x66, 0x6D, 0x7D, 0x07, 0x7F, 0x6F, 0x00, 0x00, 0x00] := by decide

/-- ENC_DIGIT with HEX_DIGITS = true, the glyphs of R151. -/
theorem test_encDigit_hex :
    [9, 10, 11, 12, 13, 14, 15, 16].map (encDigit hexFault) =
      [0x6F, 0x77, 0x7C, 0x39, 0x5E, 0x79, 0x71, 0x00] := by decide

/-- ENC_CHAR. -/
theorem test_encChar_row :
    [' ', '-', '_', 'A', 'a', 'h', 'K', '5', 'é', ':'].map (encChar defaults) =
      [0x00, 0x40, 0x08, 0x77, 0x77, 0x76, 0x00, 0x00, 0x00, 0x00] := by decide

/-- ENC_NUMBER, suppression and clamping. -/
theorem test_encNumber_suppression :
    encNumber defaults 0 false = ⟨0x00, 0x00, 0x00, 0x3F⟩ ∧ encNumber defaults 0 true = ⟨0x3F, 0x3F, 0x3F, 0x3F⟩ ∧
    encNumber defaults 10 false = ⟨0x00, 0x00, 0x06, 0x3F⟩ ∧ encNumber defaults 1005 false = ⟨0x06, 0x3F, 0x3F, 0x6D⟩ ∧
    encNumber defaults 42 true = ⟨0x3F, 0x3F, 0x66, 0x5B⟩ ∧
    encNumber defaults 2147483648 false = ⟨0x6F, 0x6F, 0x6F, 0x6F⟩ := by decide

/-- ENC_NUMBER, the sign. -/
theorem test_encNumber_sign :
    encNumber defaults (-1) false = ⟨0x00, 0x00, 0x40, 0x06⟩ ∧ encNumber defaults (-5) true = ⟨0x40, 0x3F, 0x3F, 0x6D⟩ ∧
    encNumber defaults (-50) false = ⟨0x00, 0x40, 0x6D, 0x3F⟩ ∧
    encNumber defaults (-999) false = ⟨0x40, 0x6F, 0x6F, 0x6F⟩ ∧
    encNumber defaults (-2147483648) true = ⟨0x40, 0x6F, 0x6F, 0x6F⟩ := by decide

/-- APPLY_COLON. -/
theorem test_applyColon_vectors :
    applyColon ⟨0x00, 0x40, 0x6D, 0x3F⟩ true = ⟨0x00, 0xC0, 0x6D, 0x3F⟩ ∧
    applyColon ⟨0x00, 0x80, 0x06, 0x5B⟩ false = ⟨0x00, 0x80, 0x06, 0x5B⟩ := by decide

/-- ENC_TIME. -/
theorem test_encTime_vectors :
    encTime defaults 0 0 = ⟨0x3F, 0xBF, 0x3F, 0x3F⟩ ∧ encTime defaults 5 9 = ⟨0x3F, 0xED, 0x3F, 0x6F⟩ ∧
    encTime defaults 100 60 = ⟨0x6F, 0xEF, 0x6D, 0x6F⟩ ∧ encTime defaults (-1) (-1) = ⟨0x3F, 0xBF, 0x3F, 0x3F⟩ ∧
    encTime defaults 7 75 = ⟨0x3F, 0x87, 0x6D, 0x6F⟩ := by decide

/-- ENC_TEXT, letters and cutting. -/
theorem test_encText_letters :
    encText defaults ['h', 'e', 'l', 'l', 'o'] = ⟨0x76, 0x79, 0x38, 0x38⟩ ∧
    encText defaults ['E', 'r', 'r'] = ⟨0x79, 0x50, 0x50, 0x00⟩ ∧
    encText defaults ['K', '9'] = ⟨0x00, 0x6F, 0x00, 0x00⟩ := by decide

/-- ENC_TEXT, digits, punctuation and padding. -/
theorem test_encText_mixed :
    encText defaults [] = ⟨0x00, 0x00, 0x00, 0x00⟩ ∧ encText defaults ['1', '2', ':', '3'] = ⟨0x06, 0x5B, 0x00, 0x4F⟩ ∧
    encText defaults ['a', '_', 'b'] = ⟨0x77, 0x08, 0x7C, 0x00⟩ ∧
    encText defaults [' ', ' ', '8'] = ⟨0x00, 0x00, 0x7F, 0x00⟩ := by decide

/-! ### The transport and the commands (95_test_vectors.md 2.1, 2.2) -/

/-- The pin-write list of `S 40 P`, all 33 rows. -/
theorem test_trace_of_command_40 :
    pinTrace (transaction [0x40]) (true, true) =
      [(true, false), (false, false)]
      ++ (List.range 6).flatMap (fun _ => [(false, false), (false, false), (true, false)])
      ++ [(false, false), (false, true), (true, true)]
      ++ [(false, true), (false, false), (true, false)]
      ++ [(false, false), (false, true), (true, true), (false, true)]
      ++ [(false, false), (true, false), (true, true)] := by decide

/-- V-TR-3: WRITE_BYTE(0xA5), the DIO levels at the nine rising edges. -/
theorem test_writeByte_A5 :
    wireBits 0xA5 = [true, false, true, false, false, true, false, true] ∧
    finalPair (writeByteSeq 0xA5) (false, false) = (false, true) := by decide

/-- CMD_ADDR_DATA wraps: 4, -1 and 5. -/
theorem test_cmdAddrData_wraps :
    sent (execCmdAddrData 4 0x06 ready) = some [[0xC0, 0x06]] ∧
    sent (execCmdAddrData (-1) 0x06 ready) = some [[0xC3, 0x06]] ∧
    sent (execCmdAddrData 5 0xFF ready) = some [[0xC1, 0xFF]] := by decide +kernel

/-- CMD_CTRL: both values of the display-on bit, and the mask of 9. -/
theorem test_cmdCtrl_bytes :
    sent (execCmdCtrlTx true 7 ready) = some [[0x8F]] ∧ sent (execCmdCtrlTx false 7 ready) = some [[0x87]] ∧
    sent (execCmdCtrlTx true 9 ready) = some [[0x89]] ∧ sent (execCmdCtrl false 0 ready) = some [[0x80]] := by decide +kernel

/-- CMD_DATA in both modes. -/
theorem test_cmdData_bytes :
    sent (execCmdData .auto ready) = some [[0x40]] ∧ sent (execCmdDataFixed ready) = some [[0x44]] := by decide +kernel

/-- RENDER: six transactions. -/
theorem test_render_wire :
    sent (execRender ⟨0x06, 0x5B, 0x4F, 0x66⟩ true 4 ready) =
      some [[0x40], [0xC0, 0x06], [0xC1, 0x5B], [0xC2, 0x4F], [0xC3, 0x66], [0x8C]] := by decide +kernel

/-- R113: START with DIO low, and STOP and WRITE_BYTE with CLK high, fault. -/
theorem test_preconditions :
    faultOf (execStart clkLow) = some (.precondition .start) ∧
    faultOf (execStop ready) = some (.precondition .stop) ∧
    faultOf (execWriteByte 0x00 State.reset) = some (.precondition .writeByte) := by decide

/-! ### The session operations (95_test_vectors.md 2.4) -/

/-- `init(P0, P1)` from power-up, with each value of INIT_BRIGHTNESS. -/
theorem test_init_wire :
    sessionOf (opInit defaults (programPin 0) (programPin 1) State.reset) = some (some 4, some true, some false) ∧
    sessionOf (opInit hexFault (programPin 0) (programPin 1) readyColon) = some (some 3, some true, some false) ∧
    sent (opInit defaults (programPin 0) (programPin 1) State.reset) =
      some [[0x40], [0xC0, 0x00], [0xC1, 0x00], [0xC2, 0x00], [0xC3, 0x00], [0x8C]] := by decide +kernel

/-- SET_BRIGHTNESS: clamping at both ends, and the display off. -/
theorem test_setBrightness_bytes :
    sent (opSetBrightness defaults (-3) true ready) = some [[0x88]] ∧
    sent (opSetBrightness defaults 12 true ready) = some [[0x8F]] ∧
    sent (opSetBrightness defaults 2 false ready) = some [[0x82]] ∧
    sessionOf (opSetBrightness defaults 12 false ready) = some (some 7, some false, some false) := by decide +kernel

/-- SHOW_NUMBER with the colon, and its strict range. -/
theorem test_showNumber_wire :
    sent (opShowNumber defaults (-50) false readyColon) =
      some [[0x40], [0xC0, 0x00], [0xC1, 0xC0], [0xC2, 0x6D], [0xC3, 0x3F], [0x8C]] ∧
    condOf (opShowNumber strict 12345 false ready) = some .outOfRange := by decide +kernel

/-- SHOW_TIME, whatever COLON holds. -/
theorem test_showTime_wire :
    sent (opShowTime defaults 12 34 ready) =
      some [[0x40], [0xC0, 0x06], [0xC1, 0xDB], [0xC2, 0x4F], [0xC3, 0x66], [0x8C]] ∧
    condOf (opShowTime strict 100 0 ready) = some .outOfRange := by decide +kernel

/-- SHOW_RAW masks and does not apply the colon. -/
theorem test_showRaw_wire :
    sent (opShowRaw defaults 256 (-1) 0x1FF 0x7F readyColon) =
      some [[0x40], [0xC0, 0x00], [0xC1, 0xFF], [0xC2, 0xFF], [0xC3, 0x7F], [0x8C]] ∧
    sent (opClear defaults readyColon) =
      some [[0x40], [0xC0, 0x00], [0xC1, 0x00], [0xC2, 0x00], [0xC3, 0x00], [0x8C]] := by decide +kernel

/-- SHOW_TEXT "HELP" with the colon; a long text is no range condition. -/
theorem test_showText_wire :
    sent (opShowText defaults ['H', 'E', 'L', 'P'] readyColon) =
      some [[0x40], [0xC0, 0x76], [0xC1, 0xF9], [0xC2, 0x38], [0xC3, 0x73], [0x8C]] ∧
    sent (opShowText strict ['H', 'E', 'L', 'L', 'O'] ready) =
      some [[0x40], [0xC0, 0x76], [0xC1, 0x79], [0xC2, 0x38], [0xC3, 0x38], [0x8C]] := by decide +kernel

/-- SET_COLON completes at acceptance. -/
theorem test_setColon_completes :
    condOf (opSetColon defaults true ready) = some .ok ∧
    sessionOf (opSetColon defaults true ready) = some (some 4, some true, some true) := by decide

/-- Use before INIT, under both policies; the uninitialized code comes before the range code. -/
theorem test_uninitialized :
    condOf (opShowNumber strict 12345 false State.reset) = some .uninitIgnored ∧
    condOf (opClear hexFault State.reset) = some .uninitError := by decide

/-- `init(P0, P0)` and code 0x9 are refused, while busy too. -/
theorem test_refusals :
    refusalOf (opInit defaults (programPin 0) (programPin 0) waiting) = some .samePins ∧
    refusalOf (execReservedReq 0x9 waiting) = some (.reservedCode 0x9) := by decide

/-- The last micro-action completes the operation with code 0. -/
theorem test_completion : condOf (step { ready with queue := [.wait], opActive := true }) = some .ok := by decide

/-- Log 8: an encoder call presented to a busy block waits at the port while QUEUE goes on. -/
theorem test_encoder_call_waits :
    ∃ t, step { waiting with port := [.call .encDigit [.int 8]] } = .next t ∧ t.queue = [.wait] ∧ t.encOut = [] ∧
      t.port = [.call .encDigit [.int 8]] := ⟨_, rfl, rfl, rfl, rfl⟩

/-! ### Witnesses: states and operands that meet the hypotheses of each obligation -/

/-- `ready` holds POWER 1, BRIGHTNESS 4, COLON 0. -/
theorem ready_readyWith : ReadyWith ready true 4 false := ⟨rfl, rfl, rfl, rfl, rfl, rfl, rfl⟩

/-- `readyColon` holds COLON 1. -/
theorem readyColon_readyWith : ReadyWith readyColon true 4 true := ⟨rfl, rfl, rfl, rfl, rfl, rfl, rfl⟩

/-- `ready` meets the session invariant. -/
theorem ready_inv : SessionInv ready :=
  ⟨rfl, rfl, fun h => (by cases h), fun _ => ⟨rfl, rfl, by decide, rfl, rfl, rfl, by decide⟩⟩

/-- `sampling` meets the session invariant. -/
theorem sampling_inv : SessionInv sampling :=
  ⟨rfl, rfl, fun h => (by cases h), fun _ => ⟨rfl, rfl, by decide, rfl, rfl, rfl, by decide⟩⟩

theorem witness_StepRunsTheDecodedInstruction :
    ready.port = [] ∧ ready.queue = [] ∧
    decode (.req 0x2 []) = .ok .clear ∧ ({ ready with port := [.req 0x2 []] } : State).queue = [] ∧
    decode (.req 0x8 []) = .ok (.reservedReq 0x8) ∧ waiting.queue ≠ [] ∧
      exec (.reservedReq 0x8) waiting = .refused (.reservedCode 0x8) ∧
    (∀ r, exec .clear waiting ≠ .refused r) ∧
    decode (.bus [0x00]) = .error .notBusCommand :=
  ⟨rfl, rfl, by decide, rfl, by decide, by decide, rfl, fun _ h => (by cases h), by decide⟩

theorem witness_MalformedRequestsAreRefused :
    8 ≤ (0x8 : BitVec 4).toNat ∧ 8 ≤ (0xF : BitVec 4).toNat ∧ (0x7 : BitVec 4).toNat < 8 ∧
    [Operand.int 1].map operandType ≠ (requestTypes 7).map some ∧
    [Operand.bool true].map operandType = (requestTypes 7).map some ∧
    ({ ready with port := [.req 0x0 [.pin (programPin 0), .pin (programPin 0)]] } : State).port = [.req 0x0 [.pin (programPin 0), .pin (programPin 0)]] := by
  decide

theorem witness_BusyBlockHolds :
    waiting.queue ≠ [] ∧ (Instr.clear.wellFormed = true ∧ Instr.clear.isRequest = true ∧
      ∀ code, Instr.clear ≠ .reservedReq code) ∧
    (Instr.start.wellFormed = true ∧ (firstPrim .start).isSome = true) :=
  ⟨by decide, ⟨rfl, rfl, fun _ h => (by cases h)⟩, rfl, rfl⟩

theorem witness_UninitializedUseCompletesWithItsCode :
    (Instr.showNumber 5 false).isRequest = true ∧ (∀ code, Instr.showNumber 5 false ≠ .reservedReq code) ∧
    isInit (.showNumber 5 false) = false ∧ State.reset.queue = [] ∧ State.reset.initialized = false :=
  ⟨rfl, fun _ h => (by cases h), rfl, rfl, rfl⟩

theorem witness_StrictRangeCompletesWithOutOfRange :
    strict.strictRange = true ∧ ready.queue = [] ∧ ready.initialized = true ∧
    ¬ ((0 : Int) ≤ 8 ∧ (8 : Int) ≤ 7) ∧ ¬ ((0 : Int) ≤ -1 ∧ (-1 : Int) ≤ 7) ∧
    ¬ ((-999 : Int) ≤ 10000 ∧ (10000 : Int) ≤ 9999) ∧ ¬ ((-999 : Int) ≤ -1000 ∧ (-1000 : Int) ≤ 9999) ∧
    ¬ ((0 : Int) ≤ 99 ∧ (99 : Int) ≤ 99 ∧ (0 : Int) ≤ 60 ∧ (60 : Int) ≤ 59) ∧
    ¬ ((0 : Int) ≤ 0 ∧ (0 : Int) ≤ 255 ∧ (0 : Int) ≤ 0 ∧ (0 : Int) ≤ 255 ∧ (0 : Int) ≤ 0 ∧ (0 : Int) ≤ 255 ∧
      (0 : Int) ≤ 256 ∧ (256 : Int) ≤ 255) := by decide

theorem witness_InitConfiguresAndClears :
    programPin 0 ≠ programPin 1 ∧ State.reset.queue = [] ∧ readyColon.queue = [] := by decide

theorem witness_SetBrightnessSendsTheControlCommand :
    ReadyWith ready true 4 false ∧ (Config.strictRange = true → (0 : Int) ≤ 7 ∧ (7 : Int) ≤ 7) :=
  ⟨ready_readyWith, fun _ => by decide⟩

theorem witness_ClearRendersBlank : ReadyWith readyColon true 4 true := readyColon_readyWith

theorem witness_ShowNumberRendersTheNumber :
    ReadyWith readyColon true 4 true ∧ (Config.strictRange = true → (-999 : Int) ≤ -999 ∧ (-999 : Int) ≤ 9999) :=
  ⟨readyColon_readyWith, fun _ => by decide⟩

theorem witness_ShowTimeRendersTheTime :
    ready.queue = [] ∧ ready.initialized = true ∧ ready.power = some true ∧ ready.brightness = some 4 ∧
    ready.clkOut = some true ∧ ready.dioOut = some true ∧
    (Config.strictRange = true → (0 : Int) ≤ 99 ∧ (99 : Int) ≤ 99 ∧ (0 : Int) ≤ 59 ∧ (59 : Int) ≤ 59) :=
  ⟨rfl, rfl, rfl, rfl, rfl, rfl, fun _ => by decide⟩

theorem witness_ShowRawRendersTheMaskedBytes :
    ReadyWith ready true 4 false ∧ (Config.strictRange = true →
      (0 : Int) ≤ 0 ∧ (0 : Int) ≤ 255 ∧ (0 : Int) ≤ 255 ∧ (255 : Int) ≤ 255 ∧
      (0 : Int) ≤ 128 ∧ (128 : Int) ≤ 255 ∧ (0 : Int) ≤ 1 ∧ (1 : Int) ≤ 255) :=
  ⟨ready_readyWith, fun _ => by decide⟩

theorem witness_ShowTextRendersTheText : ReadyWith readyColon true 4 true := readyColon_readyWith

theorem witness_SetColonCompletesAtAcceptance : ready.queue = [] ∧ ready.initialized = true := by decide

theorem witness_StartDrivesDioThenClkLow :
    ready.queue = [] ∧ ready.clkOut = some true ∧ ready.dioOut = some true := by decide

theorem witness_StopLeavesBothLinesHigh : clkLow.queue = [] ∧ clkLow.clkOut = some false := by decide

theorem witness_WriteByteSendsLeastSignificantFirst : clkLow.queue = [] ∧ clkLow.clkOut = some false := by decide

theorem witness_DataCommandIsOneTransaction :
    ready.queue = [] ∧ ready.clkOut = some true ∧ ready.dioOut = some true := by decide

theorem witness_AddressCommandWrapsItsAddress :
    ready.queue = [] ∧ ready.clkOut = some true ∧ ready.dioOut = some true := by decide

theorem witness_ControlCommandCarriesPowerAndBrightness :
    ready.queue = [] ∧ ready.clkOut = some true ∧ ready.dioOut = some true := by decide

theorem witness_RenderIsSixTransactions :
    ready.queue = [] ∧ ready.clkOut = some true ∧ ready.dioOut = some true := by decide

theorem witness_PreconditionViolationFaults :
    State.reset.queue = [] ∧ firstPrim .cmdDataAuto = some .start ∧ firstPrim .stop = some .stop ∧
    firstPrim (.writeByte 0x00) = some .writeByte ∧
    ¬ (State.reset.clkOut = some true ∧ State.reset.dioOut = some true) ∧ State.reset.clkOut ≠ some false ∧
    ready.queue = [] ∧ ready.clkOut ≠ some false := by decide

theorem witness_EncCharLooksUpItsTables :
    'A'.toNat = 65 + 0 ∧ 'z'.toNat = 97 + 25 ∧
    ('é' ≠ '-' ∧ 'é' ≠ '_' ∧ ¬ (65 ≤ 'é'.toNat ∧ 'é'.toNat ≤ 90) ∧ ¬ (97 ≤ 'é'.toNat ∧ 'é'.toNat ≤ 122)) := by decide

theorem witness_SignOverwritesNoSignificantDigit : (-1 : Int) < 0 ∧ (-1000 : Int) < 0 := by decide

theorem witness_ApplyColonTouchesLaneOneOnly : (⟨0x00, 0x80, 0x06, 0x5B⟩ : Frame).f1.getLsbD 7 = true := by decide

theorem witness_EncodersLeaveTheColonBitClear :
    (0x06 : Byte) ∈ (encNumber defaults 1234 false).toList ∧ (0x76 : Byte) ∈ (encText defaults ['h']).toList := by
  decide

theorem witness_DriveSetsOneLine :
    ready.clkPin = some (programPin 0) ∧ ready.clkCfg = .pullUpIO ∧ ready.dioPin = some (programPin 1) ∧ ready.dioCfg = .pullUpIO ∧
    ({ ready with clkCfg := .unconfigured, dioCfg := .unconfigured } : State).clkCfg = .unconfigured ∧
    ({ ready with clkCfg := .unconfigured, dioCfg := .unconfigured } : State).dioCfg = .unconfigured := by decide

theorem witness_SampleAppendsTheAckFlag : sampling.dioPin = some (programPin 1) ∧ sampling.dioOut = some true := by decide

theorem witness_ConfigPullUpLeavesNoLevel : ready.clkPin = some (programPin 0) ∧ ready.dioPin = some (programPin 1) := by decide

theorem witness_ReadingNoValueFaults :
    State.reset.clkPin = none ∧ State.reset.dioPin = none ∧
    ({ ready with dioOut := none } : State).dioPin = some (programPin 1) ∧ ({ ready with dioOut := none } : State).dioOut = none ∧
    (isRender (.showNumber 9999 false) = true ∧ isInit (.showNumber 9999 false) = false ∧ ready.queue = [] ∧
      ready.initialized = true ∧ (Config.strictRange = true → operandsInRange (.showNumber 9999 false) = true)) ∧
    (readsColon (.showNumber 9999 false) = true ∧ ({ ready with colon := none } : State).colon = none) ∧
    (ready.colon ≠ none ∧ ({ ready with power := none } : State).power = none) ∧
    (readsColon .clear = false ∧ ready.power ≠ none ∧ ({ ready with brightness := none } : State).brightness = none) :=
  ⟨rfl, rfl, rfl, rfl, ⟨rfl, rfl, rfl, rfl, fun _ => by decide⟩, by decide, by decide, by decide⟩

theorem witness_SequencerOnlyAdvances : ∃ t, advance waiting = .next t := ⟨_, rfl⟩

theorem witness_ResultIsWrittenAtCompletion :
    (waiting.queue = .wait :: [.wait] ∧ ∃ t, advance waiting = .next t) ∧
    (sampling.queue = .sample :: [] ∧ sampling.opActive = true ∧ ∃ t, advance sampling = .next t) ∧
    (({ sampling with opActive := false } : State).opActive = false ∧
      ∃ t, advance { sampling with opActive := false } = .next t) :=
  ⟨⟨rfl, _, rfl⟩, ⟨rfl, rfl, _, rfl⟩, rfl, _, rfl⟩

theorem witness_SessionRegisterWriters :
    (∃ t, exec (.setBrightness 7 true) ready = .next t) ∧ isInit (.setBrightness 7 true) = false ∧
    (∀ c, Instr.setBrightness 7 true ≠ .setColon c) ∧
    (∃ t, exec .clear ready = .next t) ∧ (∀ l e, Instr.clear ≠ .setBrightness l e) :=
  ⟨⟨_, rfl⟩, rfl, fun _ h => (by cases h), ⟨_, rfl⟩, fun _ _ h => (by cases h)⟩

theorem witness_ExecFrame :
    (∃ t, exec .clear ready = .next t) ∧ Instr.clear.isRequest = true ∧
    (∃ t, exec .start ready = .next t) ∧ (firstPrim .start).isSome = true :=
  ⟨⟨_, rfl⟩, rfl, ⟨_, rfl⟩, rfl⟩

theorem witness_InitializedIsNeverCleared : (∃ t, step waiting = .next t) ∧ waiting.initialized = true :=
  ⟨⟨_, rfl⟩, rfl⟩

theorem witness_EveryPinWriteIsDelayed :
    State.reset.queue = [] ∧ ∃ t, exec (.init (programPin 0) (programPin 1)) State.reset = .next t := ⟨rfl, _, rfl⟩

theorem witness_ReceiverReadsThroughPeerPulls :
    ([((0x40 : Byte), (⟨true, true, true⟩ : SlotPulls))] : List (Byte × SlotPulls)) ≠ [] ∧
    (∀ x ∈ [((0x40 : Byte), (⟨false, false, false⟩ : SlotPulls))], x.2 = ⟨false, false, false⟩) := by decide

theorem witness_OnlyCommandsGoOnTheWire :
    ready.queue = [] ∧ (∃ t, exec (.cmdAddr 1 0x5B) ready = .next t ∧ [0xC1, 0x5B] ∈ wireTransactions t.queue) ∧
    Instr.cmdAddr 1 0x5B ≠ .start ∧ Instr.cmdAddr 1 0x5B ≠ .stop ∧ (∀ b, Instr.cmdAddr 1 0x5B ≠ .writeByte b) :=
  ⟨rfl, ⟨_, rfl, by decide +kernel⟩, by decide, by decide, fun _ h => (by cases h)⟩

theorem witness_EveryRenderEndsWithTheControlByte :
    isRender .clear = true ∧ ready.queue = [] ∧ ∃ t, exec .clear ready = .next t ∧ t.queue ≠ [] :=
  ⟨rfl, rfl, _, rfl, fun h => (by cases h)⟩

theorem witness_DecodeOfEncode : (Instr.init (programPin 0) (programPin 1)).wellFormed = true ∧ (Instr.reservedReq 0xF).wellFormed = true := by
  decide

theorem witness_EncodeOfDecode :
    decode (.bus [0xC3, 0xFF]) = .ok (.cmdAddr 3 0xFF) ∧ (∀ code, Instr.cmdAddr 3 0xFF ≠ .reservedReq code) :=
  ⟨by decide, fun _ h => (by cases h)⟩

theorem witness_StepKeepsTheSessionInvariant :
    SessionInv ready ∧ (∃ t, step ready = .next t) ∧ SessionInv sampling ∧ (∃ t, step sampling = .next t) :=
  ⟨ready_inv, ⟨_, rfl⟩, sampling_inv, _, rfl⟩

theorem witness_SessionInvariantStepsNeverFault : SessionInv sampling := sampling_inv

theorem witness_RequestsFromPowerUpNeverFault :
    [PortWord.req 0x2 [], .req 0x0 [.pin (programPin 0), .pin (programPin 1)], .req 0x9 []].all isRequestWord = true := by decide

theorem witness_QueuedOperationCompletes :
    SessionInv sampling ∧ sampling.initialized = true ∧ sampling.queue ≠ [] ∧ portAccepted sampling = true :=
  ⟨sampling_inv, rfl, by decide, rfl⟩

theorem witness_RenderRequestRunsToCompletion :
    (SessionInv ready ∧ ready.queue = [] ∧ ready.port = [] ∧ isRender .clear = true ∧ isInit .clear = false ∧
      ∃ t, exec .clear ready = .next t ∧ t.queue ≠ []) ∧
    (isRender (.init (programPin 1) (programPin 0)) = true ∧ ∃ t, exec (.init (programPin 1) (programPin 0)) ready = .next t ∧ t.queue ≠ []) :=
  ⟨⟨ready_inv, rfl, rfl, rfl, rfl, _, rfl, fun h => (by cases h)⟩, rfl, _, rfl, fun h => (by cases h)⟩

theorem witness_AcksNeverSteerTheBlock :
    blind sampling = blind { sampling with ackLog := [false], peerDraw := 7 } ∧
    sampling ≠ { sampling with ackLog := [false], peerDraw := 7 } := by decide

end Sys2Proof.Tests
end

section
/-! SUPPORT. What a micro-action and an instruction do to the state, said once: `perform_effect` and `exec_effect`. The
frames of the instructions and of the sequencer (10_state.md R27, R28, R30, R32, R34) follow from the two. -/

namespace Sys2Proof.Machine

open Sys2Proof.Safety

variable {s t : State} {i : Instr}

/-! ### Micro-actions -/

/-- The samples of a list, head first. -/
theorem samples_cons (a : MicroAction) (q : List MicroAction) : samples (a :: q) = samples [a] + samples q :=
  List.countP_append (l₁ := [a])

/-- `nackSeen` is membership (10_state.md R32). -/
theorem nackSeen_eq_decide (acks : List Bool) : nackSeen acks = decide (false ∈ acks) := by
  rw [Bool.eq_iff_iff]
  simp [nackSeen]

/-- The state with the lines `L`, the ACK flags `flags` added and the draw counter at `draw`. -/
@[simps] def State.moved (s : State) (L : Lines) (flags : List Bool) (draw : Nat) : State :=
  { s with
    clkCfg := L.clkCfg, dioCfg := L.dioCfg, clkOut := L.clkOut, dioOut := L.dioOut
    ackLog := s.ackLog ++ flags, peerDraw := draw }

/-- Changing the lines alone adds no ACK flag and draws nothing. -/
theorem eq_moved {L : Lines}
    (h : t = { s with clkCfg := L.clkCfg, dioCfg := L.dioCfg, clkOut := L.clkOut, dioOut := L.dioOut }) :
    t = s.moved L [] s.peerDraw := by
  simp [h, State.moved]

/-- Everything a micro-action changes: the lines, as `Lines.after` says, one ACK flag per sample, and the draw counter
(40_bus_transport.md R101 to R105). -/
theorem perform_effect {a : MicroAction} (h : perform a s = .next t) :
    ∃ (L : Lines) (flags : List Bool) (draw : Nat),
      (linesOf s).after a = some L ∧ flags.length = samples [a] ∧ t = s.moved L flags draw := by
  rcases perform_next h with ⟨l, v, rfl, -, hc, rfl⟩ | ⟨rfl, rfl⟩ | ⟨out, rfl, -, ho, rfl⟩ | ⟨l, rfl, -, rfl⟩
  · cases l
    all_goals exact ⟨_, [], s.peerDraw, if_pos hc, rfl, eq_moved rfl⟩
  · exact ⟨linesOf t, [], t.peerDraw, rfl, rfl, eq_moved rfl⟩
  · exact ⟨linesOf s, [_], _, if_pos (by simp [linesOf, ho]), rfl, rfl⟩
  · cases l
    all_goals exact ⟨_, [], s.peerDraw, rfl, rfl, eq_moved rfl⟩

/-- With both pins set, a micro-action that does not fault on the lines answers a next state. -/
theorem perform_of_after {a : MicroAction} {L : Lines} (hclk : s.clkPin.isSome = true) (hdio : s.dioPin.isSome = true)
    (h : (linesOf s).after a = some L) : ∃ u, perform a s = .next u := by
  obtain ⟨clk, hclk⟩ := Option.isSome_iff_exists.mp hclk
  obtain ⟨dio, hdio⟩ := Option.isSome_iff_exists.mp hdio
  cases a with
  | drive l v =>
    have hcfg : s.lineCfg l = .pullUpIO := by
      cases l
      all_goals exact (Option.ite_none_right_eq_some.mp h).1
    have hpin : ∃ pin, s.linePin l = some pin := by
      cases l
      · exact ⟨clk, hclk⟩
      · exact ⟨dio, hdio⟩
    obtain ⟨pin, hpin⟩ := hpin
    exact ⟨s.setLineOut l (some v), by simp [perform, performDrive, hpin, hcfg]⟩
  | wait => exact ⟨s, rfl⟩
  | sample =>
    obtain ⟨out, (hout : s.dioOut = some out)⟩ :=
      Option.isSome_iff_exists.mp (Option.ite_none_right_eq_some.mp h).1
    exact ⟨_, by simp only [perform, performSample, hdio, hout, need_some]; rfl⟩
  | configPullUp l =>
    cases l
    · exact ⟨_, by simp only [perform, performConfigPullUp, State.linePin, hclk, need_some]; rfl⟩
    · exact ⟨_, by simp only [perform, performConfigPullUp, State.linePin, hdio, need_some]; rfl⟩

/-! ### Reads of no value (10_state.md R20) -/

theorem perform_drive_noPin {l : Line} (v : Level) (h : s.linePin l = none) :
    perform (.drive l v) s = .fault (.noValue (pinReg l)) := by simp [perform, performDrive, h]

theorem perform_configPullUp_noPin {l : Line} (h : s.linePin l = none) :
    perform (.configPullUp l) s = .fault (.noValue (pinReg l)) := by simp [perform, performConfigPullUp, h]

theorem perform_sample_noPin (h : s.dioPin = none) : perform .sample s = .fault (.noValue .dioPin) := by
  simp [perform, performSample, h]

theorem perform_sample_noLevel {pin : PinId} (hp : s.dioPin = some pin) (ho : s.dioOut = none) :
    perform .sample s = .fault (.noValue .dioOut) := by simp [perform, performSample, hp, ho]

theorem emitRender_noPower (f : Frame) (h : s.power = none) : emitRender f s = .fault (.noValue .power) := by
  simp [emitRender, h]

theorem emitRender_noBrightness (f : Frame) (hp : s.power ≠ none) (hb : s.brightness = none) :
    emitRender f s = .fault (.noValue .brightness) := by
  obtain ⟨e, he⟩ := Option.ne_none_iff_exists'.mp hp
  simp [emitRender, he, hb]

theorem emitColoned_noColon (f : Frame) (h : s.colon = none) : emitColoned f s = .fault (.noValue .colon) := by
  simp [emitColoned, h]

/-- With COLON set, SHOW_NUMBER and SHOW_TEXT end like every other render. -/
theorem emitColoned_eq_emitRender (f : Frame) (h : s.colon ≠ none) : ∃ g, emitColoned f s = emitRender g s := by
  obtain ⟨c, hc⟩ := Option.ne_none_iff_exists'.mp h
  exact ⟨applyColon f c, by simp [emitColoned, hc]⟩

/-- A render other than INIT that an idle, initialized block accepts ends in `emitColoned` if it reads COLON and in
`emitRender` if it does not (43_session_ops.md R194 to R198). -/
theorem exec_render (hr : isRender i = true) (hi : isInit i = false) (hq : s.queue = []) (hinit : s.initialized = true)
    (hrange : Config.strictRange = true → operandsInRange i = true) :
    (readsColon i = true ∧ ∃ f, exec i s = emitColoned f s.clearAcks) ∨
    (readsColon i = false ∧ ∃ f, exec i s = emitRender f s.clearAcks) := by
  cases i with
  | clear => exact .inr ⟨rfl, _, accept_body hq hinit fun _ => rfl⟩
  | showNumber value lz => exact .inl ⟨rfl, _, accept_body hq hinit hrange⟩
  | showTime m sec => exact .inr ⟨rfl, _, accept_body hq hinit hrange⟩
  | showRaw b0 b1 b2 b3 => exact .inr ⟨rfl, _, accept_body hq hinit hrange⟩
  | showText text => exact .inl ⟨rfl, _, accept_body hq hinit fun _ => rfl⟩
  | init clk dio => cases hi
  | _ => cases hr

/-! ### Instructions -/

theorem transaction_ne_nil (bytes : List Byte) : transaction bytes ≠ [] := by simp [transaction, startSeq, tx]

theorem cmdCtrlSeq_ne_nil (e : Bool) (br : Int) : cmdCtrlSeq e br ≠ [] := transaction_ne_nil _

theorem renderSeq_ne_nil (f : Frame) (e : Bool) (br : Int) : renderSeq f e br ≠ [] :=
  List.append_ne_nil_of_right_ne_nil _ (cmdCtrlSeq_ne_nil e br)

theorem initSeq_ne_nil (p : Params) : initSeq p ≠ [] := List.append_ne_nil_of_right_ne_nil _ (renderSeq_ne_nil _ _ _)

/-- No request is a direct call that puts something on the wire (30_encoding.md R81). -/
theorem firstPrim_of_isRequest (h : i.isRequest = true) : firstPrim i = none := by
  cases i with
  | init | setBrightness | clear | showNumber | showTime | showRaw | showText | setColon | reservedReq => rfl
  | _ => cases h

/-- The next states the execution of an instruction can answer: held by a busy block (43_session_ops.md R190 step 2),
completed at acceptance (steps 4 and 5), the operations' own effects (R192 to R199), and the direct calls of the BUS,
INTERNAL and FUNC rows (logs 7, 8). -/
inductive Effect (s : State) : Instr → State → Prop
  | held {i : Instr} (busy : s.queue ≠ []) : Effect s i s
  | completed {i : Instr} (c : Cond) (request : i.isRequest = true) (idle : s.queue = []) :
      Effect s i (s.clearAcks.complete c)
  | initialized {clk dio : PinId} (differ : clk ≠ dio) (idle : s.queue = []) :
      Effect s (.init clk dio)
        { s.clearAcks.initSession Config.params clk dio with queue := initSeq Config.params, opActive := true }
  | levelSet {level : Int} {e : Bool} (lv : Fin 8) (idle : s.queue = []) :
      Effect s (.setBrightness level e)
        { s.clearAcks.setLevel lv e with queue := cmdCtrlSeq e (lv.val : Int), opActive := true }
  | colonSet {c : Bool} (idle : s.queue = []) : Effect s (.setColon c) ((s.clearAcks.setColonFlag c).complete .ok)
  | rendered {i : Instr} {e : Bool} {br : Fin 8} (f : Frame) (request : i.isRequest = true) (idle : s.queue = [])
      (power : s.power = some e) (brightness : s.brightness = some br) :
      Effect s i { s.clearAcks with queue := renderSeq f e (br.val : Int), opActive := true }
  | called {i : Instr} (q : List MicroAction) (wire : (firstPrim i).isSome = true) (idle : s.queue = []) :
      Effect s i { s with queue := q, opActive := false }
  | lanes {i : Instr} (bytes : List Byte) (func : i.isRequest = false) (noWire : firstPrim i = none) :
      Effect s i (s.encResult bytes)

/-- Acceptance holds, completes at once, or has the operation's own effect. -/
theorem accept_effect {p : Params} {ok : Bool} {body : State → Out} (hr : i.isRequest = true)
    (h : accept p ok body s = .next t) (hb : s.queue = [] → body s.clearAcks = .next t → Effect s i t) :
    Effect s i t := by
  rcases accept_next h with ⟨hq, rfl⟩ | ⟨hq, -, rfl⟩ | ⟨hq, -, -, -, rfl⟩ | ⟨hq, -, -, h⟩
  · exact .held hq
  · exact .completed _ hr hq
  · exact .completed _ hr hq
  · exact hb hq h

theorem emitRender_effect {f : Frame} (hr : i.isRequest = true) (hq : s.queue = [])
    (h : emitRender f s.clearAcks = .next t) : Effect s i t := by
  obtain ⟨e, br, he, hb, -, rfl⟩ := emitRender_next h
  rw [State.emit_of_ne_nil _ (renderSeq_ne_nil _ _ _)]
  exact .rendered f hr hq he hb

theorem emitColoned_effect {f : Frame} (hr : i.isRequest = true) (hq : s.queue = [])
    (h : emitColoned f s.clearAcks = .next t) : Effect s i t := by
  obtain ⟨c, hc, h⟩ := need_next h
  exact emitRender_effect hr hq h

theorem callDirect_effect {first : Prim} {q : List MicroAction} (hw : (firstPrim i).isSome = true)
    (h : callDirect first q s = .next t) : Effect s i t := by
  rcases callDirect_next h with ⟨hq, rfl⟩ | ⟨hq, -, rfl⟩
  · exact .held hq
  · exact .called q hw hq

theorem opInit_effect {clk dio : PinId} (h : opInit Config.params clk dio s = .next t) :
    Effect s (.init clk dio) t := by
  unfold opInit at h
  split at h
  · cases h
  · next hne =>
    split at h
    · next hb => cases h; exact .held (State.isBusy_iff.mp hb)
    · next hb =>
      rw [State.emit_of_ne_nil _ (initSeq_ne_nil _)] at h
      cases h
      exact .initialized hne (State.isBusy_false.mp (by simpa using hb))

/-- Everything the execution of an instruction can answer as a next state. -/
theorem exec_effect (h : exec i s = .next t) : Effect s i t := by
  cases i with
  | init clk dio => exact opInit_effect h
  | setBrightness level enabled =>
    refine accept_effect rfl h fun hq hb => ?_
    obtain ⟨-, rfl⟩ := emitLevel_next hb
    rw [State.emit_of_ne_nil _ (cmdCtrlSeq_ne_nil _ _)]
    exact .levelSet _ hq
  | clear => exact accept_effect rfl h (emitRender_effect rfl)
  | showNumber value lz => exact accept_effect rfl h (emitColoned_effect rfl)
  | showTime m sec => exact accept_effect rfl h (emitRender_effect rfl)
  | showRaw b0 b1 b2 b3 => exact accept_effect rfl h (emitRender_effect rfl)
  | showText text => exact accept_effect rfl h (emitColoned_effect rfl)
  | setColon c =>
    refine accept_effect rfl h fun hq hb => ?_
    cases hb
    exact .colonSet hq
  | reservedReq code => cases h
  | encDigit | encChar | encNumber | applyColon | encTime | encText => cases h; exact .lanes _ rfl rfl
  | cmdDataAuto | cmdDataFixed | cmdAddr | cmdCtrl | start | stop | writeByte | cmdData | cmdAddrData | cmdCtrlTx
  | render => exact callDirect_effect rfl h

/-- A busy block holds a request, unless every block refuses it (43_session_ops.md R190 steps 1 and 2,
60_exceptions.md R238). -/
theorem exec_busy_request (hr : i.isRequest = true) (hq : s.queue ≠ []) :
    exec i s = .next s ∨ ∃ r, ∀ u, exec i u = .refused r := by
  cases i with
  | init clk dio =>
    by_cases h : clk = dio
    · exact .inr ⟨.samePins, fun u => if_pos h⟩
    · exact .inl ((if_neg h).trans (if_pos (State.isBusy_iff.mpr hq)))
  | reservedReq code => exact .inr ⟨_, fun _ => rfl⟩
  | setBrightness | clear | showNumber | showTime | showRaw | showText | setColon => exact .inl (accept_busy hq)
  | _ => cases hr

/-! ### Steps -/

/-- Everything a step can do: the sequencer's step, a refusal, or the execution of the presented word by an idle block
(43_session_ops.md R190). -/
theorem step_cases (s : State) :
    step s = advance s ∨ (∃ r, step s = .refused r) ∨
    ∃ w rest i, s.port = w :: rest ∧ decode w = .ok i ∧ s.queue = [] ∧ step s = exec i (s.takeWord rest) := by
  unfold step
  split
  · exact .inl rfl
  · next w rest hp =>
    split
    · exact .inr (.inl ⟨_, rfl⟩)
    · next i hd =>
      split
      · cases exec i s with
        | next u => exact .inl rfl
        | fault r => exact .inl rfl
        | refused r => exact .inr (.inl ⟨r, rfl⟩)
      · next hb => exact .inr (.inr ⟨w, rest, i, hp, hd, State.isBusy_false.mp (by simpa using hb), rfl⟩)

/-- The sequencer refuses nothing. -/
theorem advance_ne_refused (r : Refusal) : advance s ≠ .refused r := by
  cases hq : s.queue with
  | nil => simp [advance_idle hq]
  | cons a rest =>
    rw [advance_cons hq]
    cases ho : perform a { s with queue := rest } with
    | next u => simp
    | fault r => simp
    | refused r => exact absurd ho (perform_ne_refused a r)

/-! ### The statements about single steps -/

/-- Settles O37, by the read that comes first in each micro-action and each render. -/
theorem readingNoValueFaults : Obligations.ReadingNoValueFaults := by
  refine ⟨fun v s h => ⟨perform_drive_noPin v h, perform_configPullUp_noPin h⟩,
    fun v s h => ⟨perform_drive_noPin v h, perform_sample_noPin h, perform_configPullUp_noPin h⟩,
    fun pin s => perform_sample_noLevel, fun i s hr hi hq hinit hrange => ?_⟩
  rcases exec_render hr hi hq hinit hrange with ⟨hc, f, he⟩ | ⟨hc, f, he⟩
  · refine ⟨fun _ hn => he ▸ emitColoned_noColon f hn, fun hs hp => ?_, fun hs hp hb => ?_⟩
    all_goals
      obtain ⟨g, hg⟩ := emitColoned_eq_emitRender (s := s.clearAcks) f (hs hc)
      rw [he, hg]
    · exact emitRender_noPower g hp
    · exact emitRender_noBrightness g hp hb
  · exact ⟨fun hn => absurd (hc.symm.trans hn) (by decide), fun _ hp => he ▸ emitRender_noPower f hp,
      fun _ hp hb => he ▸ emitRender_noBrightness f hp hb⟩

/-- Settles O38: the frame of the micro-action at the head of QUEUE, which `settle` keeps. -/
theorem sequencerOnlyAdvances : Obligations.SequencerOnlyAdvances := by
  intro s t h
  cases hq : s.queue with
  | nil =>
    rw [advance_idle hq] at h
    cases h
    simp [hq]
  | cons a rest =>
    obtain ⟨u, hu, rfl⟩ := advance_next hq h
    obtain ⟨L, flags, draw, -, -, rfl⟩ := perform_effect hu
    simp

/-- Settles O39, by the three cases of `settle`. -/
theorem resultIsWrittenAtCompletion : Obligations.ResultIsWrittenAtCompletion := by
  intro a rest s t hq h
  obtain ⟨u, hu, rfl⟩ := advance_next hq h
  obtain ⟨L, flags, draw, -, -, hm⟩ := perform_effect hu
  have hrest : u.queue = rest := by simp [hm]
  have hact : u.opActive = s.opActive := by simp [hm]
  have hres : u.result = s.result := by simp [hm]
  refine ⟨fun hr => ?_, fun hr ha => ?_, fun hr ha => ?_⟩
  · rw [State.settle_of_busy (hrest.trans_ne hr)]
    exact ⟨hres, hact⟩
  · rw [State.settle_of_active (hrest.trans hr) (hact.trans ha)]
    exact ⟨by rw [State.complete_result, State.complete_ackLog, nackSeen_eq_decide], rfl⟩
  · rw [State.settle_of_direct (hrest.trans hr) (hact.trans ha)]
    exact ⟨hres, hact.trans ha⟩

/-- Settles O40: of the effects only those of INIT, SET_BRIGHTNESS and SET_COLON touch a session register. -/
theorem sessionRegisterWriters : Obligations.SessionRegisterWriters := by
  intro i s t h
  cases exec_effect h with
  | initialized => exact ⟨nofun, nofun, nofun⟩
  | levelSet lv => exact ⟨fun _ => ⟨rfl, rfl, rfl⟩, fun _ hn => absurd rfl (hn _ _), fun _ _ => rfl⟩
  | colonSet => exact ⟨fun _ => ⟨rfl, rfl, rfl⟩, fun _ _ => ⟨rfl, rfl⟩, fun _ hn => absurd rfl (hn _)⟩
  | held | completed | rendered | called | lanes =>
    exact ⟨fun _ => ⟨rfl, rfl, rfl⟩, fun _ _ => ⟨rfl, rfl⟩, fun _ _ => rfl⟩

/-- Settles O41: no effect touches a line, the port or the draws, and a direct call has only `held` and `called`. -/
theorem execFrame : Obligations.ExecFrame := by
  intro i s t h
  have request_not_called (hr : i.isRequest = true) : ¬ (firstPrim i).isSome = true := by
    simp [firstPrim_of_isRequest hr]
  cases exec_effect h with
  | held | called => exact ⟨⟨rfl, rfl, rfl, rfl, rfl, rfl⟩, fun _ => rfl, fun _ => rfl⟩
  | completed _ hr | rendered _ hr =>
    exact ⟨⟨rfl, rfl, rfl, rfl, rfl, rfl⟩, fun _ => rfl, fun hw => absurd hw (request_not_called hr)⟩
  | initialized | levelSet | colonSet => exact ⟨⟨rfl, rfl, rfl, rfl, rfl, rfl⟩, fun _ => rfl, nofun⟩
  | lanes _ hf hw =>
    exact ⟨⟨rfl, rfl, rfl, rfl, rfl, rfl⟩, fun hr => absurd (hf.symm.trans hr) (by decide), by simp [hw]⟩

/-- INITIALIZED is kept by every instruction: INIT sets it and no other writes it (10_state.md R27). -/
theorem exec_keeps_initialized (h : exec i s = .next t) (hi : s.initialized = true) : t.initialized = true := by
  cases exec_effect h with
  | initialized => rfl
  | held | completed | levelSet | colonSet | rendered | called | lanes => exact hi

/-- Settles O42: the sequencer writes no session register, and no instruction clears INITIALIZED. -/
theorem initializedIsNeverCleared : Obligations.InitializedIsNeverCleared := by
  intro s t h hi
  rcases step_next h with h | ⟨w, rest, i, -, -, -, h⟩
  · obtain ⟨-, -, -, -, -, -, hinit, -, -⟩ := sequencerOnlyAdvances s t h
    exact hinit.trans hi
  · exact exec_keeps_initialized h hi

end Sys2Proof.Machine
end

section
/-! SUPPORT. The session invariant (`SessionInv`): the lines along the block's micro-action lists, every step keeps the
invariant and faults nowhere, and an operation in progress completes. -/

namespace Sys2Proof.Safety

open Sys2Proof.Machine

/-! ### The lines along the block's lists (40_bus_transport.md R106 to R108) -/

/-- Both lines configured and driven to the levels `clk` and `dio`. -/
def Lines.driven (clk dio : Level) : Lines := ⟨.pullUpIO, .pullUpIO, some clk, some dio⟩

/-- A list runs without a fault if its head does and its tail does on the lines that leaves. -/
theorem Lines.afterAll_cons {L M : Lines} {a : MicroAction} {q : List MicroAction}
    (h : L.afterAll (a :: q) = some M) : ∃ L', L.after a = some L' ∧ L'.afterAll q = some M := by
  unfold Lines.afterAll at h
  split at h
  · cases h
  · next L' hL => exact ⟨L', hL, h⟩

/-- Driven lines stay driven along a list of pieces if they do along each piece. -/
theorem afterAll_flatMap {α : Type} {piece : α → List MicroAction}
    (h : ∀ x c d, ∃ c' d', (Lines.driven c d).afterAll (piece x) = some (Lines.driven c' d')) (xs : List α)
    (c d : Level) : ∃ c' d', (Lines.driven c d).afterAll (xs.flatMap piece) = some (Lines.driven c' d') := by
  induction xs generalizing c d with
  | nil => exact ⟨c, d, rfl⟩
  | cons x xs ih =>
    obtain ⟨c', d', hx⟩ := h x c d
    rw [List.flatMap_cons, Lines.afterAll_append, hx]
    exact ih c' d'

/-- WRITE_BYTE leaves driven lines driven (R108). -/
theorem afterAll_writeByteSeq (b : Byte) (c d : Level) :
    ∃ c' d', (Lines.driven c d).afterAll (writeByteSeq b) = some (Lines.driven c' d') := by
  obtain ⟨c', d', hbits⟩ := afterAll_flatMap (piece := bitSeq) (fun v _ _ => ⟨true, v, rfl⟩) (wireBits b) c d
  have hack : (Lines.driven c' d').afterAll ackSeq = some (Lines.driven false true) := rfl
  exact ⟨false, true, by rw [writeByteSeq, Lines.afterAll_append, hbits, Option.bind_some, hack]⟩

/-- A transaction on idle-high lines leaves them idle-high (R107). -/
@[simp] theorem afterAll_transaction (bytes : List Byte) :
    Lines.idleHigh.afterAll (transaction bytes) = some Lines.idleHigh := by
  have hstart : Lines.idleHigh.afterAll startSeq = some (Lines.driven false false) := rfl
  obtain ⟨c, d, hbytes⟩ := afterAll_flatMap afterAll_writeByteSeq bytes false false
  have hstop : (Lines.driven c d).afterAll stopSeq = some Lines.idleHigh := rfl
  simp only [transaction, Lines.afterAll_append, hstart, hbytes, hstop, Option.bind_some]

theorem afterAll_cmdCtrlSeq (e : Bool) (br : Int) :
    Lines.idleHigh.afterAll (cmdCtrlSeq e br) = some Lines.idleHigh := afterAll_transaction _

/-- RENDER, six transactions (41_command_layer.md R134), leaves idle-high lines idle-high. -/
theorem afterAll_renderSeq (f : Frame) (e : Bool) (br : Int) :
    Lines.idleHigh.afterAll (renderSeq f e br) = some Lines.idleHigh := by
  simp [renderSeq, cmdDataSeq, cmdAddrDataSeq, cmdAddrSeq, cmdCtrlSeq, cmdCtrlMaskedSeq, Lines.afterAll_append]

/-- INIT configures and drives the lines itself, so it runs on all lines (43_session_ops.md R192). -/
theorem afterAll_initSeq (p : Params) (L : Lines) : L.afterAll (initSeq p) = some Lines.idleHigh := by
  have hdriven : L.afterAll ([.configPullUp .clk, .configPullUp .dio] ++ tx .clk true ++ tx .dio true) =
      some Lines.idleHigh := rfl
  rw [initSeq, Lines.afterAll_append, hdriven, Option.bind_some, afterAll_renderSeq]

/-! ### Outcomes that meet the invariant -/

/-- An outcome that is no fault, and whose next state meets the session invariant. -/
def Safe : Out → Prop
  | .next t => SessionInv t
  | .fault _ => False
  | .refused _ => True

theorem Safe.noFault {o : Out} (h : Safe o) : NoFault o := by
  rintro r rfl
  exact h

variable {s : State}

/-- The invariant of an initialized block. -/
theorem SessionInv.ofLive (hp : s.port.all isRequestWord = true) (ha : s.opActive = s.isBusy)
    (hi : s.initialized = true) (hl : Live s) : SessionInv s :=
  ⟨hp, ha, fun h => absurd (hi.symm.trans h) (by decide), fun _ => hl⟩

/-- A busy block is an initialized one. -/
theorem SessionInv.initialized_of_busy (hs : SessionInv s) (hq : s.queue ≠ []) : s.initialized = true := by
  cases hi : s.initialized with
  | true => rfl
  | false => exact absurd (hs.uninit hi).queue hq

/-- The lines between two operations are idle-high. -/
theorem Live.lines_idle (hl : Live s) (hq : s.queue = []) : linesOf s = Lines.idleHigh := by
  have h := hl.lines
  rw [hq] at h
  exact Option.some.inj h

/-- The lines between two operations meet START's precondition. -/
theorem Live.ready_start (hl : Live s) (hq : s.queue = []) : s.ready .start = true := by
  have h := hl.lines_idle hq
  exact State.linesHigh_iff.mpr ⟨congrArg Lines.clkOut h, congrArg Lines.dioOut h⟩

/-! ### What keeps the invariant: completion, an idle block's ACK_LOG, and a queued list -/

/-- Completion with QUEUE empty. -/
theorem SessionInv.complete (hs : SessionInv s) (hq : s.queue = []) (c : Cond) : SessionInv (s.complete c) where
  requests := hs.requests
  active := (State.isBusy_false.mpr hq).symm
  uninit hi := { hs.uninit hi with }
  live hi := { hs.live hi with }

theorem SessionInv.clearAcks (hs : SessionInv s) : SessionInv s.clearAcks where
  requests := hs.requests
  active := hs.active
  uninit hi := { hs.uninit hi with }
  live hi := { hs.live hi with }

/-- The presented words are requests, one by one. -/
theorem SessionInv.port_cons (hs : SessionInv s) {w : PortWord} {rest : List PortWord} (hp : s.port = w :: rest) :
    isRequestWord w = true ∧ rest.all isRequestWord = true := by
  have h := hs.requests
  rwa [hp, List.all_cons, Bool.and_eq_true] at h

/-- Taking the presented word leaves requests at the port. -/
theorem SessionInv.takeWord (hs : SessionInv s) {w : PortWord} {rest : List PortWord} (hp : s.port = w :: rest) :
    SessionInv (s.takeWord rest) where
  requests := (hs.port_cons hp).2
  active := hs.active
  uninit hi := { hs.uninit hi with }
  live hi := { hs.live hi with }

/-- Queueing a list that runs on the lines. -/
theorem SessionInv.emit {q : List MicroAction} (hp : s.port.all isRequestWord = true) (hi : s.initialized = true)
    (hl : Live { s with queue := q }) (hne : q ≠ []) : SessionInv (s.emit q) := by
  rw [State.emit_of_ne_nil s hne]
  exact .ofLive hp (State.isBusy_iff.mpr hne).symm hi { hl with }

/-- The end of a micro-action of an operation: completion if QUEUE is now empty. -/
theorem SessionInv.settle (hp : s.port.all isRequestWord = true) (ha : s.opActive = true) (hi : s.initialized = true)
    (hl : Live s) : SessionInv s.settle := by
  cases hq : s.queue with
  | nil =>
    rw [State.settle_of_active hq ha]
    exact .ofLive hp (State.isBusy_false.mpr hq).symm hi { hl with }
  | cons a q =>
    have hb : s.queue ≠ [] := by simp [hq]
    rw [State.settle_of_busy hb]
    exact .ofLive hp (ha.trans (State.isBusy_iff.mpr hb).symm) hi hl

/-! ### The sequencer -/

/-- The sequencer keeps the invariant and does not fault: the head of QUEUE runs on the lines, and its tail on the lines
that leaves. -/
theorem advance_safe (hs : SessionInv s) : Safe (advance s) := by
  cases hq : s.queue with
  | nil =>
    rw [advance_idle hq]
    exact hs
  | cons a rest =>
    have hb : s.queue ≠ [] := by simp [hq]
    have hi := hs.initialized_of_busy hb
    have hl := hs.live hi
    obtain ⟨L, hL, hrest⟩ := Lines.afterAll_cons (hq ▸ hl.lines)
    obtain ⟨u, hu⟩ := perform_of_after (s := { s with queue := rest }) hl.clkPin hl.dioPin hL
    obtain ⟨M, flags, draw, hM, -, rfl⟩ := perform_effect hu
    obtain rfl : M = L := Option.some.inj (hM.symm.trans hL)
    rw [advance_cons hq, hu]
    exact SessionInv.settle hs.requests (hs.active.trans (State.isBusy_iff.mpr hb)) hi { hl with lines := hrest }

/-! ### The requests, accepted by an idle block -/

section Idle

variable (hs : SessionInv s)
include hs

/-- INIT sets two different pins and every register, and its list runs on all lines (43_session_ops.md R192). -/
theorem opInit_safe (p : Params) (clk dio : PinId) : Safe (opInit p clk dio s) := by
  unfold opInit
  split
  · trivial
  · next hne =>
    split
    · exact hs
    · refine SessionInv.emit hs.requests rfl ?_ (initSeq_ne_nil p)
      exact {
        clkPin := rfl, dioPin := rfl, brightness := rfl, power := rfl, colon := rfl
        pinsDiffer := fun h => hne (Option.some.inj h)
        lines := afterAll_initSeq p _ }

variable (hq : s.queue = [])
include hq

/-- Acceptance keeps the invariant if the operation's own effect does after INIT. -/
theorem accept_safe {p : Params} {ok : Bool} {body : State → Out}
    (hbody : s.initialized = true → Safe (body s.clearAcks)) : Safe (accept p ok body s) := by
  unfold accept
  split
  · exact hs
  · split
    · exact hs.clearAcks.complete hq _
    · next hi =>
      split
      · exact hs.clearAcks.complete hq _
      · exact hbody (by simpa using hi)

variable (hi : s.initialized = true)
include hi

/-- An operation that queues transactions finds START's precondition. -/
theorem emitFramed_safe {q : List MicroAction} (hne : q ≠ [])
    (hrun : Lines.idleHigh.afterAll q = some Lines.idleHigh) : Safe (emitFramed s q) := by
  have hl := hs.live hi
  rw [emitFramed, if_pos (hl.ready_start hq)]
  exact SessionInv.emit hs.requests hi { hl with lines := (hl.lines_idle hq).symm ▸ hrun } hne

/-- A render finds POWER and BRIGHTNESS. -/
theorem emitRender_safe (f : Frame) : Safe (emitRender f s) := by
  have hl := hs.live hi
  obtain ⟨e, he⟩ := Option.isSome_iff_exists.mp hl.power
  obtain ⟨br, hbr⟩ := Option.isSome_iff_exists.mp hl.brightness
  rw [emitRender, he, need_some, hbr, need_some]
  exact emitFramed_safe hs hq hi (renderSeq_ne_nil _ _ _) (afterAll_renderSeq _ _ _)

/-- SHOW_NUMBER and SHOW_TEXT find COLON too. -/
theorem emitColoned_safe (f : Frame) : Safe (emitColoned f s) := by
  obtain ⟨c, hc⟩ := Option.isSome_iff_exists.mp (hs.live hi).colon
  rw [emitColoned, hc, need_some]
  exact emitRender_safe hs hq hi _

/-- SET_BRIGHTNESS gives BRIGHTNESS and POWER a value before it sends them. -/
theorem emitLevel_safe (level : Fin 8) (enabled : Bool) : Safe (emitLevel level enabled s) := by
  have hset : SessionInv (s.setLevel level enabled) :=
    .ofLive hs.requests hs.active hi { hs.live hi with brightness := rfl, power := rfl }
  exact emitFramed_safe hset hq hi (cmdCtrlSeq_ne_nil _ _) (afterAll_cmdCtrlSeq _ _)

/-- SET_COLON completes at acceptance. -/
theorem emitColonFlag_safe (c : Bool) : Safe (emitColonFlag c s) := by
  have hset : SessionInv (s.setColonFlag c) := .ofLive hs.requests hs.active hi { hs.live hi with colon := rfl }
  exact hset.complete hq .ok

omit hi

/-- A request accepted by an idle block keeps the invariant and does not fault. -/
theorem exec_request_safe {i : Instr} (hr : i.isRequest = true) : Safe (exec i s) := by
  have hc := hs.clearAcks
  cases i with
  | init clk dio => exact opInit_safe hs _ clk dio
  | setBrightness level enabled => exact accept_safe hs hq fun hi => emitLevel_safe hc hq hi _ _
  | clear => exact accept_safe hs hq fun hi => emitRender_safe hc hq hi _
  | showNumber value lz => exact accept_safe hs hq fun hi => emitColoned_safe hc hq hi _
  | showTime m sec => exact accept_safe hs hq fun hi => emitRender_safe hc hq hi _
  | showRaw b0 b1 b2 b3 => exact accept_safe hs hq fun hi => emitRender_safe hc hq hi _
  | showText text => exact accept_safe hs hq fun hi => emitColoned_safe hc hq hi _
  | setColon c => exact accept_safe hs hq fun hi => emitColonFlag_safe hc hq hi c
  | reservedReq code => trivial
  | _ => cases hr

end Idle

/-! ### Steps -/

/-- A request word decodes to a request (30_encoding.md R81). -/
theorem decodeReq_isRequest {code : BitVec 4} {ops : List Operand} {i : Instr} (h : decodeReq code ops = .ok i) :
    i.isRequest = true := by
  unfold decodeReq at h
  split at h
  case h_9 => cases h; rfl
  all_goals
    split at h
    · cases h; rfl
    · cases h

theorem decode_isRequest {w : PortWord} {i : Instr} (hw : isRequestWord w = true) (h : decode w = .ok i) :
    i.isRequest = true := by
  cases w with
  | req code ops => exact decodeReq_isRequest h
  | bus bytes => cases hw
  | call sub ops => cases hw

/-- Every step keeps the invariant and does not fault. -/
theorem step_safe (hs : SessionInv s) : Safe (step s) := by
  rcases step_cases s with h | ⟨r, h⟩ | ⟨w, rest, i, hp, hd, hq, h⟩
  · exact h ▸ advance_safe hs
  · exact h ▸ trivial
  · exact h ▸ exec_request_safe (hs.takeWord hp) hq (decode_isRequest (hs.port_cons hp).1 hd)

/-- Settles O54: `Safe`, read at a next state. -/
theorem stepKeepsTheSessionInvariant : Obligations.StepKeepsTheSessionInvariant := by
  intro s t hs h
  have hsafe := step_safe hs
  rw [h] at hsafe
  exact hsafe

/-- Settles O55: `Safe`, read at a fault. -/
theorem sessionInvariantStepsNeverFault : Obligations.SessionInvariantStepsNeverFault :=
  fun _ hs => (step_safe hs).noFault

/-! ### An operation in progress completes -/

/-- The sequencer's step of a busy block that meets the invariant: it answers a next state, which meets the invariant
too and has one ACK flag more if the micro-action was a sample (10_state.md R30, R31, R35). -/
theorem advance_busy {a : MicroAction} {rest : List MicroAction} (hs : SessionInv s) (hq : s.queue = a :: rest) :
    ∃ t flags, advance s = .next t ∧ SessionInv t ∧ t.queue = rest ∧ flags.length = samples [a] ∧
      t.ackLog = s.ackLog ++ flags ∧ t.status = s.status ∧ t.port = s.port := by
  have hsafe := advance_safe hs
  cases ho : advance s with
  | next t =>
    obtain ⟨u, hu, rfl⟩ := advance_next hq ho
    obtain ⟨L, flags, draw, -, hf, rfl⟩ := perform_effect hu
    rw [ho] at hsafe
    exact ⟨_, flags, rfl, hsafe, by simp, hf, by simp, by simp [State.status], by simp⟩
  | fault r => rw [ho] at hsafe; exact hsafe.elim
  | refused r => exact absurd ho (advance_ne_refused r)

/-- With a presented word that is not refused, a busy block steps as its sequencer does, for as long as that word is
presented (43_session_ops.md R190 step 2). -/
theorem step_eq_advance (hs : SessionInv s) (ha : portAccepted s = true) {t : State} (hp : t.port = s.port)
    (hq : t.queue ≠ []) : step t = advance t := by
  unfold portAccepted at ha
  unfold step
  rw [hp]
  cases hport : s.port with
  | nil => rfl
  | cons w rest =>
    simp only [hport] at ha
    cases hd : decode w with
    | error r => simp [hd] at ha
    | ok i =>
      simp only [hd, if_pos (State.isBusy_iff.mpr hq)]
      rcases exec_busy_request (decode_isRequest (hs.port_cons hport).1 hd) hq with h | ⟨r, h⟩
      · rw [h]; rfl
      · simp [hd, h s] at ha

/-- How a run through the QUEUE `q` from `s` ends: at `t`, with `flags` taken on the way (10_state.md R30, R32). -/
structure CompletedAt (s : State) (q : List MicroAction) (t : State) (flags : List Bool) : Prop where
  run : Host.Core.run Sys2Proof.core q.length s = .next t
  queue : t.queue = []
  lines : linesOf t = Lines.idleHigh
  acks : flags.length = samples q
  result : t.result =
    some { cond := .ok, acks := s.ackLog ++ flags, nackSeen := decide (false ∈ s.ackLog ++ flags) }
  status : t.status = s.status
  port : t.port = s.port

/-- A busy block that steps as its sequencer does runs through its QUEUE, by induction on the tail of QUEUE. -/
theorem run_queue {a : MicroAction} {rest : List MicroAction} (hs : SessionInv s) (hq : s.queue = a :: rest)
    (hstep : ∀ t, t.port = s.port → t.queue ≠ [] → step t = advance t) :
    ∃ t flags, CompletedAt s (a :: rest) t flags := by
  induction rest generalizing s a with
  | nil =>
    have hb : s.queue ≠ [] := by simp [hq]
    obtain ⟨t, flags, ht, hinv, hqt, hf, hacks, hstatus, hport⟩ := advance_busy hs hq
    have hi : t.initialized = true :=
      (congrArg Status.initialized hstatus).trans (hs.initialized_of_busy hb)
    obtain ⟨-, hdone, -⟩ := resultIsWrittenAtCompletion a [] s t hq ht
    obtain ⟨hres, -⟩ := hdone rfl (hs.active.trans (State.isBusy_iff.mpr hb))
    exact ⟨t, flags, {
      run := (run_of_next 0 ((hstep s rfl hb).trans ht)).trans (run_zero t)
      queue := hqt
      lines := (hinv.live hi).lines_idle hqt
      acks := hf
      result := hacks ▸ hres
      status := hstatus
      port := hport }⟩
  | cons b rest ih =>
    have hb : s.queue ≠ [] := by simp [hq]
    obtain ⟨t, flags, ht, hinv, hqt, hf, hacks, hstatus, hport⟩ := advance_busy hs hq
    obtain ⟨u, flags', hu⟩ := ih hinv hqt fun v hv => hstep v (hv.trans hport)
    exact ⟨u, flags ++ flags', {
      run := (run_of_next _ ((hstep s rfl hb).trans ht)).trans hu.run
      queue := hu.queue
      lines := hu.lines
      acks := by rw [List.length_append, hf, hu.acks, ← samples_cons]
      result := by rw [hu.result, hacks, List.append_assoc]
      status := hu.status.trans hstatus
      port := hu.port.trans hport }⟩

/-- Settles O57: a run through QUEUE, all of whose steps are the sequencer's. -/
theorem queuedOperationCompletes : Obligations.QueuedOperationCompletes := by
  intro s hs _ hq ha
  obtain ⟨a, rest, hqueue⟩ := List.exists_cons_of_ne_nil hq
  obtain ⟨t, flags, ht⟩ := run_queue hs hqueue fun _ => step_eq_advance hs ha
  rw [← hqueue] at ht
  exact ⟨t, flags, ht.run, ht.queue, ht.lines, ht.acks, ht.result, ht.status, ht.port⟩

end Sys2Proof.Safety
end

section
/-! SUPPORT. Decoding and encoding are inverse (30_encoding.md R71 to R81): what each part of the decoder answers, said
once, and the statements of the encoding. -/

namespace Sys2Proof

open Sys2Proof.Machine
open Sys2Proof.Safety

/-! ### Requests (30_encoding.md R78, R79) -/

@[simp] theorem operandType_eq_pinId {o : Operand} : operandType o = some .pinId ↔ ∃ p, o = .pin p := by
  cases o <;> simp [operandType]

@[simp] theorem operandType_eq_int {o : Operand} : operandType o = some .int ↔ ∃ v, o = .int v := by
  cases o <;> simp [operandType]

@[simp] theorem operandType_eq_bool {o : Operand} : operandType o = some .bool ↔ ∃ b, o = .bool b := by
  cases o <;> simp [operandType]

@[simp] theorem operandType_eq_text {o : Operand} : operandType o = some .text ↔ ∃ t, o = .text t := by
  cases o <;> simp [operandType]

/-- The operands have the types R78 gives the op-select code. -/
def WellTyped (code : BitVec 4) (ops : List Operand) : Prop :=
  ops.map operandType = (requestTypes code.toNat).map some

/-- Everything the decoder answers to a request: a reserved code whatever its operands, the instruction whose word it is
where the operands have their types, and else the refusal of R79. -/
theorem decodeReq_cases (code : BitVec 4) (ops : List Operand) :
    (8 ≤ code.toNat ∧ decodeReq code ops = .ok (.reservedReq code)) ∨
    (code.toNat < 8 ∧ WellTyped code ops ∧ ∃ i, decodeReq code ops = .ok i ∧ encode i = .req code ops) ∨
    (code.toNat < 8 ∧ ¬ WellTyped code ops ∧ decodeReq code ops = .error .mistypedOperand) := by
  unfold decodeReq WellTyped
  split
  case h_9 => exact .inl ⟨by grind, rfl⟩
  all_goals
    next hc =>
    simp only [hc]
    split
    · exact .inr (.inl ⟨by omega, rfl, _, rfl, congrArg (PortWord.req · _) (BitVec.eq_of_toNat_eq hc.symm)⟩)
    · next hno =>
      exact .inr (.inr ⟨by omega, by simpa [requestTypes, List.map_eq_cons_iff, -Bool.exists_bool] using hno, rfl⟩)

/-- A reserved code decodes whatever its operands (R79). -/
theorem decodeReq_reserved {code : BitVec 4} (ops : List Operand) (h : 8 ≤ code.toNat) :
    decodeReq code ops = .ok (.reservedReq code) := by
  rcases decodeReq_cases code ops with ⟨-, hd⟩ | ⟨hlt, -⟩ | ⟨hlt, -⟩
  · exact hd
  · omega
  · omega

/-! ### Transactions (30_encoding.md R71 to R77) -/

theorem firstByte_address (a : BitVec 2) : firstByte (0b110000#6 ++ a) = some (.two a) := by
  revert a
  decide

theorem firstByte_control (e : Bool) (b : BitVec 3) :
    firstByte (0b1000#4 ++ BitVec.ofBool e ++ b) = some (.one (.cmdCtrl e b)) := by
  revert e b
  decide

/-- An address byte is its class above its two address bits (R73). -/
theorem eq_address_of_firstByte {b : Byte} {a : BitVec 2} (h : firstByte b = some (.two a)) : b = 0b110000#6 ++ a := by
  unfold firstByte at h
  split at h
  · cases h
  split at h
  · cases h
  split at h
  · next hclass =>
    cases h
    calc b = b.extractLsb' 2 6 ++ b.extractLsb' 0 2 :=
          (BitVec.extractLsb'_append_extractLsb' (w := 6) (len := 2)).symm
      _ = 0b110000#6 ++ b.extractLsb' 0 2 := by rw [hclass]; rfl
  split at h <;> cases h

/-- A control byte is its class, its display-on bit and its brightness field (R74). -/
theorem append_controlFields (b : Byte) :
    b.extractLsb' 4 4 ++ BitVec.ofBool (b.getLsbD 3) ++ b.extractLsb' 0 3 = b := by
  have hbit : BitVec.ofBool (b.getLsbD 3) = b.extractLsb' 3 1 := by
    ext i hi
    obtain rfl : i = 0 := by omega
    simp
  calc b.extractLsb' 4 4 ++ BitVec.ofBool (b.getLsbD 3) ++ b.extractLsb' 0 3
      = b.extractLsb' 4 4 ++ b.extractLsb' 3 1 ++ b.extractLsb' 0 3 := by rw [hbit]
    _ = b.extractLsb' 3 5 ++ b.extractLsb' 0 3 :=
        congrArg (· ++ b.extractLsb' 0 3) (BitVec.extractLsb'_append_extractLsb'_eq_extractLsb' rfl)
    _ = b := BitVec.extractLsb'_append_extractLsb'

/-- A first byte that is a whole transaction is the word of the command it names (R72, R74). -/
theorem encode_of_firstByte {b : Byte} {i : Instr} (h : firstByte b = some (.one i)) : encode i = .bus [b] := by
  unfold firstByte at h
  split at h
  · next hb => cases h; rw [hb]; rfl
  split at h
  · next hb => cases h; rw [hb]; rfl
  split at h
  · cases h
  split at h
  · next hclass =>
    cases h
    have hb : 0b1000#4 ++ BitVec.ofBool (b.getLsbD 3) ++ b.extractLsb' 0 3 = b :=
      (congrArg (· ++ BitVec.ofBool (b.getLsbD 3) ++ b.extractLsb' 0 3) hclass.symm).trans (append_controlFields b)
    exact congrArg (fun x => PortWord.bus [x]) hb
  · cases h

theorem encode_of_decodeBus {bytes : List Byte} {i : Instr} (h : decodeBus bytes = .ok i) : encode i = .bus bytes := by
  unfold decodeBus at h
  split at h
  · cases h
  · next b rest =>
    split at h
    · cases h
    · next hb => cases h; exact encode_of_firstByte hb
    · next a dd hb => cases h; rw [eq_address_of_firstByte hb]; rfl
    · cases h

/-! ### Direct calls (log 7) -/

theorem encode_of_decodeCall {sub : Sub} {ops : List Operand} {i : Instr} (h : decodeCall sub ops = .ok i) :
    encode i = .call sub ops := by
  cases sub
  all_goals
    simp only [decodeCall] at h
    split at h
    · cases h; rfl
    · cases h

/-! ### Refusals at the request port (43_session_ops.md R190 step 1) -/

section Port

variable {s : State} {w : PortWord} {rest : List PortWord} {r : Refusal} (hp : s.port = w :: rest)
include hp

/-- A word that does not decode is refused. -/
theorem step_of_undecodable (hd : decode w = .error r) : step s = .refused r := by
  simp only [step, hp, hd]

/-- An instruction that every block refuses is refused by a busy block as by an idle one. -/
theorem step_of_refused {i : Instr} (hd : decode w = .ok i) (hr : ∀ u, exec i u = .refused r) :
    step s = .refused r := by
  simp only [step, hp, hd, hr, holdWhileBusy, ite_self]

end Port

/-! ### The statements of the encoding -/

/-- Settles O51: the fields of a command byte are read back from it, a reserved code decodes without operands, and every
other word is decoded by computation. -/
theorem decodeOfEncode : Obligations.DecodeOfEncode := by
  intro i hw
  cases i with
  | reservedReq code => exact decodeReq_reserved [] (BitVec.le_toNat_of_msb_true hw)
  | cmdAddr a dd => simp only [encode, decode, decodeBus, firstByte_address]
  | cmdCtrl e b => simp only [encode, decode, decodeBus, firstByte_control]
  | _ => rfl

/-- Settles O52, by the kind of word that is presented. -/
theorem encodeOfDecode : Obligations.EncodeOfDecode := by
  intro w i h hi
  cases w with
  | req code ops =>
    change decodeReq code ops = .ok i at h
    rcases decodeReq_cases code ops with ⟨-, hd⟩ | ⟨-, -, j, hd, hj⟩ | ⟨-, -, hd⟩
    · cases hd.symm.trans h
      exact absurd rfl (hi code)
    · cases hd.symm.trans h
      exact hj
    · cases hd.symm.trans h
  | bus bytes => exact encode_of_decodeBus h
  | call sub ops => exact encode_of_decodeCall h

/-- Settles O4: INIT compares its pins before any hold, and the decoder refuses by `decodeReq_cases`. -/
theorem malformedRequestsAreRefused : Obligations.MalformedRequestsAreRefused := by
  intro code ops
  have samePins (pin : PinId) (s : State) : exec (.init pin pin) s = .refused .samePins := if_pos rfl
  refine ⟨decodeReq_reserved ops, fun s => rfl, samePins,
    fun pin s rest hp => step_of_refused hp rfl (samePins pin),
    fun s rest hc hp => step_of_refused hp (decodeReq_reserved ops hc) fun u => rfl,
    fun s rest hc ht hp => ?_, fun hc ht => ?_⟩
  · rcases decodeReq_cases code ops with ⟨hge, -⟩ | ⟨-, htyped, -⟩ | ⟨-, -, hd⟩
    · omega
    · exact absurd htyped ht
    · exact step_of_undecodable hp hd
  · rcases decodeReq_cases code ops with ⟨hge, -⟩ | ⟨-, -, hword⟩ | ⟨-, hmistyped, -⟩
    · omega
    · exact hword
    · exact absurd ht hmistyped

/-- Settles O24: each of the six rows is `State.encResult` of the function's bytes. -/
theorem encoderCallsChangeOnlyTheLanes : Obligations.EncoderCallsChangeOnlyTheLanes :=
  fun _ => ⟨fun _ => rfl, fun _ => rfl, fun _ _ => rfl, fun _ _ => rfl, fun _ _ => rfl, fun _ => rfl⟩

/-- Settles O53: the words are those `decodeOfEncode` reads back, and 0xC4 is in no class of first bytes. -/
theorem sampleWordsDecode : Obligations.SampleWordsDecode := by
  have pinsDiffer : (Instr.init (programPin 0) (programPin 1)).wellFormed = true := by decide
  exact ⟨decodeOfEncode _ pinsDiffer, decodeOfEncode (.showNumber 1234 false) rfl, decodeOfEncode .cmdDataAuto rfl,
    decodeOfEncode (.cmdAddr 1 0x5B) rfl, decodeOfEncode (.cmdCtrl true 4) rfl, rfl⟩

end Sys2Proof
end

section
/-! SUPPORT. What a receiver makes of the block's micro-action lists (40_bus_transport.md R112): a transaction is read
as its bytes, whatever was read before it, and so every QUEUE as the transactions it is made of. -/

namespace Sys2Proof.Machine

open Sys2Proof.Safety

/-! ### A receiver along a micro-action list -/

/-- The receiver after the pin writes of a micro-action list. -/
def Receiver.after (r : Receiver) (q : List MicroAction) : Receiver := (pinTrace q r.last).foldl Receiver.next r

@[simp] theorem Receiver.next_last (r : Receiver) (p : Pair) : (r.next p).last = p := by
  unfold Receiver.next
  split_ifs <;> rfl

@[simp] theorem Receiver.after_nil (r : Receiver) : r.after [] = r := rfl

/-- A pin write is seen as a pair of levels. -/
@[simp] theorem Receiver.after_drive (r : Receiver) (l : Line) (v : Level) (q : List MicroAction) :
    r.after (.drive l v :: q) = (r.next (l.write v r.last)).after q := by
  simp [Receiver.after, pinTrace]

@[simp] theorem Receiver.after_wait (r : Receiver) (q : List MicroAction) : r.after (.wait :: q) = r.after q := rfl

@[simp] theorem Receiver.after_sample (r : Receiver) (q : List MicroAction) : r.after (.sample :: q) = r.after q := rfl

@[simp] theorem Receiver.after_configPullUp (r : Receiver) (l : Line) (q : List MicroAction) :
    r.after (.configPullUp l :: q) = r.after q := rfl

theorem Receiver.after_append (r : Receiver) (a b : List MicroAction) : r.after (a ++ b) = (r.after a).after b := by
  induction a generalizing r with
  | nil => rfl
  | cons m a ih => cases m <;> simp [ih]

/-! ### Bits, bytes and transactions -/

variable {r : Receiver}

/-- One bit (R108): CLK rises with DIO at the bit, and DIO moves only while CLK is low. -/
theorem Receiver.after_bitSeq (hin : r.inside = true) (hlen : r.bits.length < 8) (v : Level) :
    r.after (bitSeq v) = { r with last := (true, v), bits := r.bits ++ [v] } := by
  obtain ⟨⟨c, d⟩, inside, bytes, bits, done⟩ := r
  dsimp only at hin hlen
  cases c <;> simp [bitSeq, tx, Line.write, Receiver.next, hin, hlen]

/-- Bits, as long as the byte under way has room for them. -/
theorem Receiver.after_bits (vs : List Level) (hin : r.inside = true) (hlen : r.bits.length + vs.length ≤ 8) :
    ∃ p, r.after (vs.flatMap bitSeq) = { r with last := p, bits := r.bits ++ vs } := by
  induction vs generalizing r with
  | nil => exact ⟨r.last, by simp⟩
  | cons v vs ih =>
    simp only [List.length_cons] at hlen
    obtain ⟨p, hp⟩ := ih (r := { r with last := (true, v), bits := r.bits ++ [v] }) hin (by simp; omega)
    have hv := Receiver.after_bitSeq hin (by omega) v
    exact ⟨p, by simp [Receiver.after_append, hv, hp]⟩

/-- The ACK slot (R108): the ninth rising edge ends the byte, and CLK is left low with DIO released. -/
theorem Receiver.after_ackSeq (hin : r.inside = true) (hlen : r.bits.length = 8) :
    r.after ackSeq = { r with last := (false, true), bytes := r.bytes ++ [byteOfBits r.bits], bits := [] } := by
  obtain ⟨⟨c, d⟩, inside, bytes, bits, done⟩ := r
  dsimp only at hin hlen
  cases c <;> simp [ackSeq, tx, Line.write, Receiver.next, hin, hlen]

/-- The receiver puts the bits together in the order they went on the wire (20_memory.md R53). -/
@[simp] theorem byteOfBits_wireBits (b : Byte) : byteOfBits (wireBits b) = b := by
  apply BitVec.eq_of_toNat_eq
  have hb : b.toNat < 256 := b.isLt
  simp only [byteOfBits, wireBits, List.foldr, BitVec.getLsbD, Nat.toNat_testBit, BitVec.toNat_ofNat]
  omega

theorem Receiver.after_writeByteSeq (b : Byte) (hin : r.inside = true) (hbits : r.bits = []) :
    r.after (writeByteSeq b) = { r with last := (false, true), bytes := r.bytes ++ [b] } := by
  obtain ⟨p, hp⟩ := Receiver.after_bits (wireBits b) hin (by simp [hbits, wireBits])
  rw [hbits, List.nil_append] at hp
  have hack := Receiver.after_ackSeq (r := { r with last := p, bits := wireBits b }) hin rfl
  rw [writeByteSeq, Receiver.after_append, hp, hack, byteOfBits_wireBits, ← hbits]

/-- The bytes of a transaction, which leave CLK low. -/
theorem Receiver.after_bytes (bs : List Byte) (hclk : r.last.1 = false) (hin : r.inside = true) (hbits : r.bits = []) :
    ∃ d, r.after (bs.flatMap writeByteSeq) = { r with last := (false, d), bytes := r.bytes ++ bs } := by
  induction bs generalizing r with
  | nil => exact ⟨r.last.2, by simp [← hclk]⟩
  | cons b bs ih =>
    obtain ⟨d, hd⟩ := ih (r := { r with last := (false, true), bytes := r.bytes ++ [b] }) rfl hin hbits
    have hb := Receiver.after_writeByteSeq b hin hbits
    exact ⟨d, by simp [Receiver.after_append, hb, hd]⟩

/-- START from idle-high lines opens a transaction (R106). -/
theorem Receiver.after_startSeq (h : r.last = (true, true)) :
    r.after startSeq = { r with last := (false, false), inside := true, bytes := [], bits := [] } := by
  simp [startSeq, tx, Line.write, Receiver.next, h]

/-- STOP from CLK low ends it (R107). -/
theorem Receiver.after_stopSeq {d : Level} (h : r.last = (false, d)) (hin : r.inside = true) (hbits : r.bits = []) :
    r.after stopSeq =
      { last := (true, true), inside := false, bytes := [], bits := [], done := r.done ++ [r.bytes] } := by
  simp [stopSeq, tx, Line.write, Receiver.next, h, hin, hbits]

/-- Between two transactions, `done` read: idle-high lines and no byte or bit under way. -/
def Receiver.idle (done : List (List Byte)) : Receiver := ⟨(true, true), false, [], [], done⟩

/-- A transaction is read as its bytes (R112). -/
theorem Receiver.after_transaction (done : List (List Byte)) (bytes : List Byte) :
    (Receiver.idle done).after (transaction bytes) = Receiver.idle (done ++ [bytes]) := by
  have hstart := Receiver.after_startSeq (r := Receiver.idle done) rfl
  obtain ⟨d, hbytes⟩ := Receiver.after_bytes (r := ⟨(false, false), true, [], [], done⟩) bytes rfl rfl rfl
  have hstop := Receiver.after_stopSeq (r := ⟨(false, d), true, bytes, [], done⟩) rfl rfl rfl
  simp only [transaction, Receiver.after_append, hstart]
  exact (congrArg (Receiver.after · stopSeq) hbytes).trans hstop

theorem Receiver.after_transactions (done txns : List (List Byte)) :
    (Receiver.idle done).after (txns.flatMap transaction) = Receiver.idle (done ++ txns) := by
  induction txns generalizing done with
  | nil => simp
  | cons bytes txns ih => simp [Receiver.after_append, Receiver.after_transaction, ih]

/-! ### The transactions on the wire -/

theorem wireTransactions_eq (q : List MicroAction) : wireTransactions q = ((Receiver.idle []).after q).done := rfl

/-- A receiver reads from transactions in a row exactly those, in order (R112). -/
theorem wireTransactions_flatMap_transaction (txns : List (List Byte)) :
    wireTransactions (txns.flatMap transaction) = txns := by
  rw [wireTransactions_eq, Receiver.after_transactions]
  rfl

/-- The transactions of RENDER (41_command_layer.md R134). -/
def renderTransactions (f : Frame) (e : Bool) (br : Int) : List (List Byte) :=
  [[dataCommand .auto], [addressCommand 0, f.f0], [addressCommand 1, f.f1], [addressCommand 2, f.f2],
    [addressCommand 3, f.f3], [controlCommand e (maskBrightness br)]]

theorem renderSeq_eq (f : Frame) (e : Bool) (br : Int) :
    renderSeq f e br = (renderTransactions f e br).flatMap transaction := by
  simp only [renderSeq, renderTransactions, List.flatMap_cons, List.flatMap_nil, List.append_nil, List.append_assoc]
  rfl

theorem wireTransactions_transaction (bytes : List Byte) : wireTransactions (transaction bytes) = [bytes] := by
  simpa using wireTransactions_flatMap_transaction [bytes]

theorem wireTransactions_renderSeq (f : Frame) (e : Bool) (br : Int) :
    wireTransactions (renderSeq f e br) = renderTransactions f e br := by
  rw [renderSeq_eq, wireTransactions_flatMap_transaction]

/-- INIT's own pin writes drive both lines high, which a receiver does not read (43_session_ops.md R192). -/
theorem wireTransactions_initSeq (p : Params) :
    wireTransactions (initSeq p) = renderTransactions Frame.zero true ((initLevel p).val : Int) := by
  rw [← wireTransactions_renderSeq, wireTransactions_eq, wireTransactions_eq, initSeq, Receiver.after_append]
  rfl

/-! ### Commands (30_encoding.md R71 to R74, R76) -/

/-- The bytes of a transaction that the decoder reads as an instruction. -/
def IsCommand (bytes : List Byte) : Prop := ∃ j, decode (.bus bytes) = .ok j

theorem isCommand_data (m : AddrMode) : IsCommand [dataCommand m] := by
  cases m with
  | auto => exact ⟨.cmdDataAuto, decodeOfEncode .cmdDataAuto rfl⟩
  | fixed => exact ⟨.cmdDataFixed, decodeOfEncode .cmdDataFixed rfl⟩

/-- The address command is the word of CMD_ADDR (R73). -/
theorem isCommand_address (a : BitVec 2) (d : Byte) : IsCommand [addressCommand a, d] := by
  have hword : addressCommand a = 0b110000#6 ++ a := by
    revert a
    decide
  exact ⟨.cmdAddr a d, hword ▸ decodeOfEncode (.cmdAddr a d) rfl⟩

/-- The control command is the word of CMD_CTRL (R74). -/
theorem isCommand_control (e : Bool) (b : BitVec 3) : IsCommand [controlCommand e b] := by
  have hword : controlCommand e b = 0b1000#4 ++ BitVec.ofBool e ++ b := by
    revert e b
    decide
  exact ⟨.cmdCtrl e b, hword ▸ decodeOfEncode (.cmdCtrl e b) rfl⟩

/-- A micro-action list with nothing but commands on the wire. -/
def CommandsOnly (q : List MicroAction) : Prop := ∀ txn ∈ wireTransactions q, IsCommand txn

theorem commandsOnly_nil : CommandsOnly [] := nofun

theorem commandsOnly_transaction {bytes : List Byte} (h : IsCommand bytes) : CommandsOnly (transaction bytes) := by
  intro txn htxn
  rw [wireTransactions_transaction, List.mem_singleton] at htxn
  exact htxn ▸ h

theorem isCommand_of_mem_renderTransactions {f : Frame} {e : Bool} {br : Int} {txn : List Byte}
    (h : txn ∈ renderTransactions f e br) : IsCommand txn := by
  simp only [renderTransactions, List.mem_cons, List.not_mem_nil, or_false] at h
  rcases h with rfl | rfl | rfl | rfl | rfl | rfl
  · exact isCommand_data _
  iterate 4 exact isCommand_address _ _
  · exact isCommand_control _ _

theorem commandsOnly_renderSeq (f : Frame) (e : Bool) (br : Int) : CommandsOnly (renderSeq f e br) := fun _ h =>
  isCommand_of_mem_renderTransactions (wireTransactions_renderSeq f e br ▸ h)

theorem commandsOnly_initSeq (p : Params) : CommandsOnly (initSeq p) := fun _ h =>
  isCommand_of_mem_renderTransactions (wireTransactions_initSeq p ▸ h)

/-! ### The QUEUE an instruction leaves -/

/-- The micro-actions of a direct call of a BUS or INTERNAL row (log 7); none for the other rows. -/
def directSeq : Instr → List MicroAction
  | .start => startSeq
  | .stop => stopSeq
  | .writeByte b => writeByteSeq b
  | .cmdDataAuto => cmdDataSeq .auto
  | .cmdDataFixed => cmdDataSeq .fixed
  | .cmdData m => cmdDataSeq m
  | .cmdAddr a dd => cmdAddrSeq a dd
  | .cmdAddrData a d => cmdAddrDataSeq a d
  | .cmdCtrl e b => cmdCtrlMaskedSeq e b
  | .cmdCtrlTx e br => cmdCtrlSeq e br
  | .render f e br => renderSeq f e br
  | _ => []

/-- A direct call of a BUS or INTERNAL row is `callDirect` with the row's primitive and micro-actions (log 7). -/
theorem exec_eq_callDirect {i : Instr} {first : Prim} (h : firstPrim i = some first) (s : State) :
    exec i s = callDirect first (directSeq i) s := by
  cases i with
  | start | stop | writeByte | cmdDataAuto | cmdDataFixed | cmdAddr | cmdCtrl | cmdData | cmdAddrData | cmdCtrlTx
  | render => cases h; rfl
  | _ => cases h

theorem commandsOnly_directSeq {i : Instr} (hstart : i ≠ .start) (hstop : i ≠ .stop)
    (hbyte : ∀ b, i ≠ .writeByte b) :
    CommandsOnly (directSeq i) := by
  cases i with
  | start => exact absurd rfl hstart
  | stop => exact absurd rfl hstop
  | writeByte b => exact absurd rfl (hbyte b)
  | cmdDataAuto | cmdDataFixed | cmdData => exact commandsOnly_transaction (isCommand_data _)
  | cmdAddr | cmdAddrData => exact commandsOnly_transaction (isCommand_address _ _)
  | cmdCtrl | cmdCtrlTx => exact commandsOnly_transaction (isCommand_control _ _)
  | render f e br => exact commandsOnly_renderSeq f e br
  | _ => exact commandsOnly_nil

/-- Settles O49, by the effects an instruction can have on an idle block: a direct call leaves its row's micro-actions,
and an operation nothing, one control command, or a render. -/
theorem onlyCommandsGoOnTheWire : Obligations.OnlyCommandsGoOnTheWire := by
  intro i s t hq h hstart hstop hbyte
  change CommandsOnly t.queue
  cases exec_effect h with
  | held busy => exact absurd hq busy
  | completed | colonSet | lanes => exact hq.symm ▸ commandsOnly_nil
  | initialized => exact commandsOnly_initSeq _
  | levelSet => exact commandsOnly_transaction (isCommand_control _ _)
  | rendered => exact commandsOnly_renderSeq _ _ _
  | called q wire =>
    obtain ⟨first, hfirst⟩ := Option.isSome_iff_exists.mp wire
    rw [exec_eq_callDirect hfirst] at h
    rcases callDirect_next h with ⟨busy, -⟩ | ⟨-, -, ht⟩
    · exact absurd hq busy
    · rw [ht]
      exact commandsOnly_directSeq hstart hstop hbyte

end Sys2Proof.Machine
end

section
/-! SUPPORT. The transport (40_bus_transport.md R101 to R113): what a receiver reads from the block's outputs and from the
bus, where DIO moves while CLK is high, and the micro-actions and primitives on the state. -/

namespace Sys2Proof.Machine

open Sys2Proof.Safety

/-! ### Traces along micro-action lists -/

/-- The trace of two lists in a row. -/
theorem pinTrace_append (a b : List MicroAction) (p : Pair) :
    pinTrace (a ++ b) p = pinTrace a p ++ pinTrace b (finalPair a p) := by
  induction a generalizing p with
  | nil => rfl
  | cons m a ih => cases m <;> simp [pinTrace, finalPair, ih]

/-- The pair two lists in a row leave. -/
theorem finalPair_append (a b : List MicroAction) (p : Pair) :
    finalPair (a ++ b) p = finalPair b (finalPair a p) := by
  induction a generalizing p with
  | nil => rfl
  | cons m a ih => cases m <;> simp [finalPair, ih]

/-- START leaves both lines low (R106). -/
@[simp] theorem finalPair_startSeq (p : Pair) : finalPair startSeq p = (false, false) := rfl

/-- WRITE_BYTE leaves CLK low and DIO released (R108). -/
@[simp] theorem finalPair_writeByteSeq (b : Byte) (p : Pair) : finalPair (writeByteSeq b) p = (false, true) := rfl

/-- STOP leaves both lines high (R107). -/
@[simp] theorem finalPair_stopSeq (p : Pair) : finalPair stopSeq p = (true, true) := rfl

/-- Any number of bytes leaves CLK low. -/
theorem finalPair_bytes (bytes : List Byte) (d : Level) :
    ∃ d', finalPair (bytes.flatMap writeByteSeq) (false, d) = (false, d') := by
  induction bytes generalizing d with
  | nil => exact ⟨d, rfl⟩
  | cons b bytes ih => simpa [finalPair_append] using ih true

/-- STOP's line pairs from CLK low do not depend on DIO (R107). -/
theorem pinTrace_stopSeq (d : Level) : pinTrace stopSeq (false, d) = [(false, false), (true, false), (true, true)] := rfl

/-! ### The receiver of the block's outputs (R112) -/

/-- Settles O47: each transaction takes the receiver from idle to idle with its bytes read, so a list of them does. -/
theorem receiverReadsTheTransactions : Obligations.ReceiverReadsTheTransactions :=
  wireTransactions_flatMap_transaction

/-! ### The receiver of the bus (R112, 10_state.md R28) -/

variable {r : Receiver}

/-- An ACK slot in which DIO is at any level while CLK is low and at one level while it is high, which is all R112
assumes of the peer's pulls: the ninth rising edge ends the byte. -/
theorem Receiver.foldl_ackSlot (hin : r.inside = true) (hlen : r.bits.length = 8) (opening release high : Level) :
    [(false, opening), (false, release), (true, high), (false, true)].foldl Receiver.next r =
      { r with last := (false, true), bytes := r.bytes ++ [byteOfBits r.bits], bits := [] } := by
  obtain ⟨⟨c, d⟩, inside, bytes, bits, done⟩ := r
  dsimp only at hin hlen
  simp [Receiver.next, hin, hlen]

/-- A byte is read from the bus whatever the peer pulls in its ACK slot. -/
theorem Receiver.foldl_busTraceByte (b : Byte) (k : SlotPulls) (hin : r.inside = true) (hbits : r.bits = []) :
    (busTraceByte b k r.last).foldl Receiver.next r = { r with last := (false, true), bytes := r.bytes ++ [b] } := by
  obtain ⟨p, hp⟩ := Receiver.after_bits (wireBits b) hin (by simp [hbits, wireBits])
  rw [Receiver.after, hbits, List.nil_append] at hp
  have hslot := Receiver.foldl_ackSlot (r := { r with last := p, bits := wireBits b }) hin rfl
  rw [busTraceByte, List.foldl_append, hp, hslot, byteOfBits_wireBits, ← hbits]

/-- Bytes in a row, each after the first from the pair WRITE_BYTE leaves (R108). -/
theorem Receiver.foldl_busTraceBytes (x : Byte × SlotPulls) (xs : List (Byte × SlotPulls))
    (hin : r.inside = true) (hbits : r.bits = []) :
    (busTraceBytes (x :: xs) r.last).foldl Receiver.next r =
      { r with last := (false, true), bytes := r.bytes ++ (x :: xs).map Prod.fst } := by
  induction xs generalizing r x with
  | nil => simp [busTraceBytes, Receiver.foldl_busTraceByte, hin, hbits]
  | cons y ys ih =>
    have hys := ih (r := { r with last := (false, true), bytes := r.bytes ++ [x.1] }) y hin hbits
    rw [busTraceBytes, List.foldl_append, Receiver.foldl_busTraceByte _ _ hin hbits, hys]
    simp

/-- A transaction of at least one byte is read from the bus as its bytes. -/
theorem readTrace_busTraceTransaction (x : Byte × SlotPulls) (xs : List (Byte × SlotPulls)) :
    readTrace (true, true) (busTraceTransaction (x :: xs)) = [(x :: xs).map Prod.fst] := by
  have hstart : (pinTrace startSeq (true, true)).foldl Receiver.next (Receiver.fresh (true, true)) =
      ⟨(false, false), true, [], [], []⟩ := Receiver.after_startSeq rfl
  have hbytes : (busTraceBytes (x :: xs) (false, false)).foldl Receiver.next ⟨(false, false), true, [], [], []⟩ =
      ⟨(false, true), true, (x :: xs).map Prod.fst, [], []⟩ := Receiver.foldl_busTraceBytes x xs rfl rfl
  have hstop : (pinTrace stopSeq (false, true)).foldl Receiver.next
      ⟨(false, true), true, (x :: xs).map Prod.fst, [], []⟩ = Receiver.idle [(x :: xs).map Prod.fst] :=
    Receiver.after_stopSeq rfl rfl rfl
  rw [readTrace, busTraceTransaction, List.foldl_append, List.foldl_append, hstart, hbytes, hstop, Receiver.idle]

/-- Where the peer pulls nothing, the bus carries the block's outputs (10_state.md R28). -/
theorem busTraceByte_noPull (b : Byte) (p : Pair) :
    busTraceByte b ⟨false, false, false⟩ p = pinTrace (writeByteSeq b) p := by
  have hbits : finalPair ((wireBits b).flatMap bitSeq) p = (true, b.getLsbD 7) := rfl
  rw [busTraceByte, writeByteSeq, pinTrace_append, hbits]
  simp [busLevel, ackSeq, tx, pinTrace, Line.write]

theorem busTraceBytes_noPull {bytes : List (Byte × SlotPulls)}
    (h : ∀ x ∈ bytes, x.2 = ⟨false, false, false⟩) (p : Pair) :
    busTraceBytes bytes p = pinTrace ((bytes.map Prod.fst).flatMap writeByteSeq) p := by
  induction bytes generalizing p with
  | nil => rfl
  | cons x xs ih =>
    obtain ⟨b, k⟩ := x
    obtain ⟨hk : k = _, hxs⟩ := List.forall_mem_cons.mp h
    simp [busTraceBytes, hk, busTraceByte_noPull, pinTrace_append, ih hxs]

theorem busTraceTransaction_noPull {bytes : List (Byte × SlotPulls)}
    (h : ∀ x ∈ bytes, x.2 = ⟨false, false, false⟩) :
    busTraceTransaction bytes = pinTrace (transaction (bytes.map Prod.fst)) (true, true) := by
  obtain ⟨d, hclk⟩ := finalPair_bytes (bytes.map Prod.fst) false
  rw [busTraceTransaction, busTraceBytes_noPull h, transaction, pinTrace_append, pinTrace_append, finalPair_append,
    finalPair_startSeq, hclk, pinTrace_stopSeq, pinTrace_stopSeq]

/-- Settles O48: in an ACK slot only the ninth rising edge counts, and the byte is complete before it. -/
theorem receiverReadsThroughPeerPulls : Obligations.ReceiverReadsThroughPeerPulls := by
  intro bytes hne
  refine ⟨?_, busTraceTransaction_noPull⟩
  cases bytes with
  | nil => exact absurd rfl hne
  | cons x xs => exact readTrace_busTraceTransaction x xs

/-! ### DIO while CLK is high (R111) -/

/-- The changes along two lists in a row. -/
theorem highChanges_append (a b : List MicroAction) (p : Pair) :
    highChanges (pinTrace (a ++ b) p) p =
      highChanges (pinTrace a p) p ++ highChanges (pinTrace b (finalPair a p)) (finalPair a p) := by
  induction a generalizing p with
  | nil => rfl
  | cons m a ih =>
    cases m with
    | drive l v =>
      simp only [List.cons_append, pinTrace, finalPair, highChanges, ih]
      split <;> rfl
    | wait | sample | configPullUp => exact ih p

/-- Pieces along which DIO never changes while CLK is high, in a row. -/
theorem highChanges_flatMap {α : Type} {piece : α → List MicroAction}
    (h : ∀ x p, highChanges (pinTrace (piece x) p) p = []) (xs : List α) (p : Pair) :
    highChanges (pinTrace (xs.flatMap piece) p) p = [] := by
  induction xs generalizing p with
  | nil => rfl
  | cons x xs ih => rw [List.flatMap_cons, highChanges_append, h, ih, List.nil_append]

/-- One bit: DIO moves after CLK is low (R108). -/
theorem highChanges_bitSeq (v : Level) (p : Pair) : highChanges (pinTrace (bitSeq v) p) p = [] := by
  simp [bitSeq, tx, pinTrace, Line.write, highChanges]

/-- The ACK slot: DIO is released after CLK is low (R108). -/
theorem highChanges_ackSeq (p : Pair) : highChanges (pinTrace ackSeq p) p = [] := by
  simp [ackSeq, tx, pinTrace, Line.write, highChanges]

/-- WRITE_BYTE never changes DIO while CLK is high. -/
theorem highChanges_writeByteSeq (b : Byte) (p : Pair) : highChanges (pinTrace (writeByteSeq b) p) p = [] := by
  rw [writeByteSeq, highChanges_append, highChanges_flatMap highChanges_bitSeq, highChanges_ackSeq, List.nil_append]

/-- START is a fall (R106). -/
theorem highChanges_startSeq : highChanges (pinTrace startSeq (true, true)) (true, true) = [false] := rfl

/-- STOP is a rise (R107). -/
theorem highChanges_stopSeq (d : Level) : highChanges (pinTrace stopSeq (false, d)) (false, d) = [true] := rfl

/-- Over a transaction DIO changes while CLK is high in its START and its STOP alone. -/
theorem highChanges_transaction (bytes : List Byte) :
    highChanges (pinTrace (transaction bytes) (true, true)) (true, true) = [false, true] := by
  obtain ⟨d, hclk⟩ := finalPair_bytes bytes false
  rw [transaction, highChanges_append, highChanges_append, finalPair_append, finalPair_startSeq, hclk,
    highChanges_startSeq, highChanges_flatMap highChanges_writeByteSeq, highChanges_stopSeq]
  rfl

/-- Settles O46, primitive by primitive; a transaction's changes are those of its parts. -/
theorem dioIsStableWhileClkIsHigh : Obligations.DioIsStableWhileClkIsHigh :=
  ⟨⟨rfl, highChanges_startSeq⟩,
    fun b d => ⟨highChanges_writeByteSeq b (false, d), finalPair_writeByteSeq b (false, d)⟩,
    fun d => ⟨pinTrace_stopSeq d, highChanges_stopSeq d⟩,
    fun bytes => ⟨highChanges_transaction bytes, by rw [transaction, finalPair_append, finalPair_stopSeq]⟩⟩

/-! ### The primitives called directly (R106 to R108, R113; log 7) -/

variable {s : State} {i : Instr} {first : Prim}

/-- An idle block without the line precondition faults (R113). -/
theorem callDirect_notReady {q : List MicroAction} (hq : s.queue = []) (hr : ¬ s.ready first = true) :
    callDirect first q s = .fault (.precondition first) := by
  simp [callDirect, State.isBusy, hq, hr]

/-- A direct call on an idle block with the line precondition queues the row's micro-actions. -/
theorem exec_ready (hi : firstPrim i = some first) (hq : s.queue = []) (hr : s.ready first = true) :
    exec i s = .next { s with queue := directSeq i, opActive := false } := by
  rw [exec_eq_callDirect hi, callDirect_ready hq hr]

/-- A direct call on an idle block without it faults. -/
theorem exec_notReady (hi : firstPrim i = some first) (hq : s.queue = []) (hr : ¬ s.ready first = true) :
    exec i s = .fault (.precondition first) := by
  rw [exec_eq_callDirect hi, callDirect_notReady hq hr]

/-- Settles O23: every BUS and INTERNAL row checks the precondition of its first primitive. -/
theorem preconditionViolationFaults : Obligations.PreconditionViolationFaults := fun _ _ hq =>
  ⟨fun hi hl => exec_notReady hi hq (mt State.linesHigh_iff.mp hl),
    fun hi hl => exec_notReady hi hq (mt State.clkLow_iff.mp hl),
    fun hi hl => exec_notReady hi hq (mt State.clkLow_iff.mp hl)⟩

/-- Settles O16: the list is `startSeq`. -/
theorem startDrivesDioThenClkLow : Obligations.StartDrivesDioThenClkLow :=
  ⟨fun _ hq hclk hdio => exec_ready (i := .start) rfl hq (State.linesHigh_iff.mpr ⟨hclk, hdio⟩), rfl⟩

/-- Settles O17: the list is `stopSeq`. -/
theorem stopLeavesBothLinesHigh : Obligations.StopLeavesBothLinesHigh :=
  ⟨fun _ hq hclk => exec_ready (i := .stop) rfl hq (State.clkLow_iff.mpr hclk), pinTrace_stopSeq⟩

/-- Settles O18: the list is `writeByteSeq b`. -/
theorem writeByteSendsLeastSignificantFirst : Obligations.WriteByteSendsLeastSignificantFirst := fun b =>
  ⟨fun _ hq hclk => exec_ready (i := .writeByte b) rfl hq (State.clkLow_iff.mpr hclk),
    fun d => finalPair_writeByteSeq b (false, d)⟩

/-- Settles O43: the counts do not depend on the levels a byte drives. -/
theorem primitivePinWriteCounts : Obligations.PrimitivePinWriteCounts :=
  ⟨rfl, rfl, rfl, fun _ => ⟨rfl, rfl, rfl⟩, rfl, rfl, rfl⟩

/-! ### The micro-actions (R101 to R105) -/

variable {l : Line} {pin : PinId}

theorem perform_drive_configured (v : Level) (hp : s.linePin l = some pin) (hc : s.lineCfg l = .pullUpIO) :
    perform (.drive l v) s = .next (s.setLineOut l (some v)) := by
  simp [perform, performDrive, hp, hc]

theorem perform_drive_unconfigured (v : Level) (hp : s.linePin l = some pin) (hc : s.lineCfg l = .unconfigured) :
    perform (.drive l v) s = .fault (.unconfiguredLine l) := by
  simp [perform, performDrive, hp, hc]

theorem perform_configPullUp_pin (hp : s.linePin l = some pin) :
    perform (.configPullUp l) s = .next ((s.setLineCfg l .pullUpIO).setLineOut l none) := by
  simp [perform, performConfigPullUp, hp]

theorem perform_sample_level {out : Level} (hp : s.dioPin = some pin) (ho : s.dioOut = some out) :
    perform .sample s = .next (s.recordSample (busLevel out (Config.peerPull s.peerDraw))) := by
  simp [perform, performSample, hp, ho]

/-- Settles O33: `performDrive` at each line, by its configuration. -/
theorem driveSetsOneLine : Obligations.DriveSetsOneLine :=
  ⟨fun v _ _ hp hc => perform_drive_configured (l := .clk) v hp hc,
    fun v _ _ hp hc => perform_drive_configured (l := .dio) v hp hc,
    fun _ _ => rfl,
    fun v _ _ hp hc => perform_drive_unconfigured (l := .clk) v hp hc,
    fun v _ _ hp hc => perform_drive_unconfigured (l := .dio) v hp hc⟩

/-- Settles O34, by Wait's own case of `perform` (R103). -/
theorem waitChangesNothing : Obligations.WaitChangesNothing := fun _ => rfl

/-- Settles O35: `State.recordSample` of the bus level. -/
theorem sampleAppendsTheAckFlag : Obligations.SampleAppendsTheAckFlag := fun _ _ _ hp ho => perform_sample_level hp ho

/-- Settles O36, at each line. -/
theorem configPullUpLeavesNoLevel : Obligations.ConfigPullUpLeavesNoLevel :=
  ⟨fun _ _ hp => perform_configPullUp_pin (l := .clk) hp, fun _ _ hp => perform_configPullUp_pin (l := .dio) hp⟩

end Sys2Proof.Machine
end

section
/-! SUPPORT. The peer's answers never steer the block (40_bus_transport.md R109, 41_command_layer.md R137,
60_exceptions.md R232): what a state function answers, seen through `blind`, does not change when ACK_LOG, RESULT and the
draw counter of its argument are blanked. -/

namespace Sys2Proof.Safety

open Sys2Proof.Machine

/-- A state function that reads ACK_LOG, RESULT and the draw counter into nothing but themselves. -/
def IgnoresAcks (f : State → Out) : Prop := ∀ s, blindOut (f (blind s)) = blindOut (f s)

/-- So two states that differ only there have outcomes that differ only there. -/
theorem IgnoresAcks.blindOut_eq {f : State → Out} (h : IgnoresAcks f) {s t : State} (hst : blind s = blind t) :
    blindOut (f s) = blindOut (f t) := by
  rw [← h s, hst, h t]

theorem blindOut_next (s : State) : blindOut (.next s) = .next (blind s) := rfl

/-! ### Operations -/

/-- A read of a register other than the three, if what follows it ignores them. -/
theorem ignoresAcks_need {α : Type} {reg : Reg} {get : State → Option α} {k : α → State → Out}
    (hget : ∀ s, get (blind s) = get s) (hk : ∀ a, IgnoresAcks (k a)) :
    IgnoresAcks fun s => need reg (get s) fun a => k a s := by
  intro s
  dsimp only
  rw [hget]
  cases get s with
  | none => rfl
  | some a => exact hk a s

theorem blind_emit (s : State) (q : List MicroAction) : blind ((blind s).emit q) = blind (s.emit q) := by
  cases q <;> rfl

theorem ready_blind (s : State) (first : Prim) : (blind s).ready first = s.ready first := by cases first <;> rfl

theorem ignoresAcks_emitFramed (q : List MicroAction) : IgnoresAcks fun s => emitFramed s q := by
  intro s
  simp only [emitFramed, ready_blind]
  split
  · rw [blindOut_next, blindOut_next, blind_emit]
  · rfl

theorem ignoresAcks_emitRender (f : Frame) : IgnoresAcks (emitRender f) :=
  ignoresAcks_need (fun _ => rfl) fun _ => ignoresAcks_need (fun _ => rfl) fun _ => ignoresAcks_emitFramed _

theorem ignoresAcks_emitColoned (f : Frame) : IgnoresAcks (emitColoned f) :=
  ignoresAcks_need (fun _ => rfl) fun _ => ignoresAcks_emitRender _

theorem ignoresAcks_emitLevel (level : Fin 8) (e : Bool) : IgnoresAcks (emitLevel level e) := fun s =>
  ignoresAcks_emitFramed _ (s.setLevel level e)

/-- Acceptance, which writes the three and reads only QUEUE and INITIALIZED, if the operation's own effect ignores them
(43_session_ops.md R190). -/
theorem ignoresAcks_accept {body : State → Out} (h : IgnoresAcks body) (p : Params) (ok : Bool) :
    IgnoresAcks (accept p ok body) := by
  intro s
  unfold accept
  rw [show (blind s).isBusy = s.isBusy from rfl, show (blind s).initialized = s.initialized from rfl]
  split_ifs
  · rfl
  · rfl
  · rfl
  · exact h.blindOut_eq rfl

theorem ignoresAcks_callDirect (first : Prim) (q : List MicroAction) : IgnoresAcks (callDirect first q) := by
  intro s
  unfold callDirect
  rw [show (blind s).isBusy = s.isBusy from rfl, ready_blind]
  split_ifs <;> rfl

theorem ignoresAcks_opInit (p : Params) (clk dio : PinId) : IgnoresAcks (opInit p clk dio) := by
  intro s
  unfold opInit
  rw [show (blind s).isBusy = s.isBusy from rfl]
  split_ifs <;> rfl

/-- No instruction reads an answer of the peer. -/
theorem ignoresAcks_exec (i : Instr) : IgnoresAcks (exec i) := by
  cases i with
  | init clk dio => exact ignoresAcks_opInit _ _ _
  | setBrightness level e => exact ignoresAcks_accept (ignoresAcks_emitLevel _ _) _ _
  | clear | showTime | showRaw => exact ignoresAcks_accept (ignoresAcks_emitRender _) _ _
  | showNumber | showText => exact ignoresAcks_accept (ignoresAcks_emitColoned _) _ _
  | setColon c => exact ignoresAcks_accept (fun _ => rfl) _ _
  | reservedReq | encDigit | encChar | encNumber | applyColon | encTime | encText => exact fun _ => rfl
  | cmdDataAuto | cmdDataFixed | cmdAddr | cmdCtrl | start | stop | writeByte | cmdData | cmdAddrData | cmdCtrlTx
  | render => exact ignoresAcks_callDirect _ _

/-! ### The sequencer and the step -/

/-- A sample's level goes into ACK_LOG alone (R109). -/
theorem ignoresAcks_perform (a : MicroAction) : IgnoresAcks (perform a) := by
  cases a with
  | drive l v =>
    refine ignoresAcks_need (get := (State.linePin · l)) (fun _ => by cases l <;> rfl) fun _ s => ?_
    rw [show (blind s).lineCfg l = s.lineCfg l by cases l <;> rfl]
    cases s.lineCfg l with
    | unconfigured => rfl
    | pullUpIO => cases l <;> rfl
  | wait => exact fun _ => rfl
  | sample => exact ignoresAcks_need (fun _ => rfl) fun _ => ignoresAcks_need (fun _ => rfl) fun _ _ => rfl
  | configPullUp l => exact ignoresAcks_need (fun _ => by cases l <;> rfl) fun _ _ => by cases l <;> rfl

/-- Completion is decided by QUEUE and the operation in progress (10_state.md R30). -/
theorem blind_settle (s : State) : blind (blind s).settle = blind s.settle := by
  unfold State.settle
  rw [show (blind s).queue = s.queue from rfl, show (blind s).opActive = s.opActive from rfl]
  split
  · split <;> rfl
  · rfl

theorem blindOut_mapNext_settle (o : Out) :
    blindOut (mapNext o State.settle) = mapNext (blindOut o) fun s => blind s.settle := by
  cases o with
  | next s => exact congrArg _ (blind_settle s).symm
  | fault | refused => rfl

theorem ignoresAcks_advance : IgnoresAcks advance := by
  intro s
  cases hq : s.queue with
  | nil => rw [advance_idle hq, advance_idle (s := blind s) hq]; rfl
  | cons a rest =>
    have hperform := ignoresAcks_perform a { s with queue := rest }
    rw [advance_cons hq, advance_cons (s := blind s) hq, blindOut_mapNext_settle, blindOut_mapNext_settle, ← hperform]
    rfl

/-- A busy block looks only at whether the presented instruction is refused (43_session_ops.md R190 steps 1 and 2). -/
theorem holdWhileBusy_blindOut (o : Out) (s : State) : holdWhileBusy (blindOut o) s = holdWhileBusy o s := by
  cases o <;> rfl

theorem ignoresAcks_holdWhileBusy (o : Out) : IgnoresAcks (holdWhileBusy o) := by
  cases o with
  | refused r => exact fun _ => rfl
  | next | fault => exact ignoresAcks_advance

/-- No step is steered by an answer of the peer. -/
theorem ignoresAcks_step : IgnoresAcks step := by
  intro s
  unfold step
  rw [show (blind s).port = s.port from rfl, show (blind s).isBusy = s.isBusy from rfl]
  cases s.port with
  | nil => exact ignoresAcks_advance s
  | cons w rest =>
    dsimp only
    cases decode w with
    | error r => rfl
    | ok i =>
      dsimp only
      split
      · rw [← holdWhileBusy_blindOut, ignoresAcks_exec, holdWhileBusy_blindOut, ignoresAcks_holdWhileBusy]
      · exact ignoresAcks_exec i (s.takeWord rest)

/-- Settles O59: no part of a step reads what `blind` blanks, except to write it. -/
theorem acksNeverSteerTheBlock : Obligations.AcksNeverSteerTheBlock := fun _ _ h => ignoresAcks_step.blindOut_eq h

end Sys2Proof.Safety
end

section
/-! SUPPORT. The command layer (41_command_layer.md R131 to R135): the command bytes as numbers, the transactions a direct
call of a command queues, and the control byte that ends every render. -/

namespace Sys2Proof.Machine

open Sys2Proof.Safety

/-! ### The command bytes (30_encoding.md R72 to R75) -/

/-- Masking an integer is its remainder (00_scope.md R7). -/
theorem toNat_maskBits (k : Nat) (v : Int) : (maskBits k v).toNat = (v % (2 ^ k : Nat)).toNat := BitVec.toNat_ofInt v

/-- The fields of the address command do not overlap, so it is their sum (R73). -/
theorem addressCommand_eq_ofNat (a : BitVec 2) : addressCommand a = BitVec.ofNat 8 (0xC0 + a.toNat) := by
  revert a
  decide

/-- An address operand wraps to 2 bits (20_memory.md R51). -/
theorem addressCommand_maskAddress (a : Int) :
    addressCommand (maskAddress a) = BitVec.ofNat 8 (0xC0 + (a % 4).toNat) := by
  rw [addressCommand_eq_ofNat, maskAddress, toNat_maskBits]
  rfl

/-- The fields of the control command do not overlap, so it is their sum (R74). -/
theorem controlCommand_eq_ofNat (e : Bool) (b : BitVec 3) :
    controlCommand e b = BitVec.ofNat 8 (0x80 + (if e then 8 else 0) + b.toNat) := by
  revert e b
  decide

/-- A brightness operand wraps to 3 bits (R75). -/
theorem controlCommand_maskBrightness (e : Bool) (br : Int) :
    controlCommand e (maskBrightness br) = BitVec.ofNat 8 (0x80 + (if e then 8 else 0) + (br % 8).toNat) := by
  rw [controlCommand_eq_ofNat, maskBrightness, toNat_maskBits]
  rfl

/-- BRIGHTNESS itself goes into the control command unchanged (10_state.md R24). -/
theorem controlCommand_brightness (e : Bool) (br : Fin 8) :
    controlCommand e (maskBrightness (br.val : Int)) = BitVec.ofNat 8 (0x80 + (if e then 8 else 0) + br.val) := by
  have hmod : ((br.val : Int) % 8).toNat = br.val := by omega
  rw [controlCommand_maskBrightness, hmod]

/-! ### Direct calls of the commands (41_command_layer.md R131 to R134; log 7) -/

/-- A command called on an idle block with both lines high queues its row's micro-actions and changes nothing else. -/
theorem exec_command {i : Instr} {s : State} (hi : firstPrim i = some .start) (hq : s.queue = [])
    (hclk : s.clkOut = some true) (hdio : s.dioOut = some true) :
    exec i s = .next { s with queue := directSeq i, opActive := false } :=
  exec_ready hi hq (State.linesHigh_iff.mpr ⟨hclk, hdio⟩)

/-- Settles O19: the four rows queue the transaction of their mode's byte. -/
theorem dataCommandIsOneTransaction : Obligations.DataCommandIsOneTransaction := fun _ hq hclk hdio =>
  ⟨exec_command (i := .cmdData .auto) rfl hq hclk hdio, exec_command (i := .cmdData .fixed) rfl hq hclk hdio,
    exec_command (i := .cmdDataAuto) rfl hq hclk hdio, exec_command (i := .cmdDataFixed) rfl hq hclk hdio⟩

/-- Settles O20: the address command is the sum of its fields, and an integer address is masked first. -/
theorem addressCommandWrapsItsAddress : Obligations.AddressCommandWrapsItsAddress := by
  intro s d hq hclk hdio
  constructor
  · intro a
    rw [← addressCommand_maskAddress]
    exact exec_command (i := .cmdAddrData a d) rfl hq hclk hdio
  · intro a
    rw [← addressCommand_eq_ofNat]
    exact exec_command (i := .cmdAddr a d) rfl hq hclk hdio

/-- Settles O21: the control command is the sum of its fields, and an integer brightness is masked first. -/
theorem controlCommandCarriesPowerAndBrightness : Obligations.ControlCommandCarriesPowerAndBrightness := by
  intro s e hq hclk hdio
  constructor
  · intro br
    rw [← controlCommand_maskBrightness]
    exact exec_command (i := .cmdCtrlTx e br) rfl hq hclk hdio
  · intro b
    rw [← controlCommand_eq_ofNat]
    exact exec_command (i := .cmdCtrl e b) rfl hq hclk hdio

/-- Settles O22: `renderSeq` is the six transactions, with the addresses 0 to 3 of RENDER within 2 bits. -/
theorem renderIsSixTransactions : Obligations.RenderIsSixTransactions := by
  intro s f e br hq hclk hdio
  rw [← controlCommand_maskBrightness]
  exact exec_command (i := .render f e br) rfl hq hclk hdio

/-! ### The end of a render (41_command_layer.md R135) -/

/-- No operation that renders is a direct call that puts something on the wire. -/
theorem firstPrim_of_isRender {i : Instr} (h : isRender i = true) : firstPrim i = none := by
  cases i with
  | init | clear | showNumber | showTime | showRaw | showText => rfl
  | _ => cases h

/-- Six transactions on the wire, the last of them the control byte of POWER and BRIGHTNESS. -/
def EndsWithControl (s : State) : Prop :=
  ∃ (e : Bool) (br : Fin 8), s.power = some e ∧ s.brightness = some br ∧
    (wireTransactions s.queue).length = 6 ∧
    (wireTransactions s.queue).getLast? = some [BitVec.ofNat 8 (0x80 + (if e then 8 else 0) + br.val)]

/-- The transactions of RENDER with the registers' values end so. -/
theorem endsWithControl_of_renderTransactions {s : State} {f : Frame} {e : Bool} {br : Fin 8}
    (hpower : s.power = some e) (hbright : s.brightness = some br)
    (hwire : wireTransactions s.queue = renderTransactions f e (br.val : Int)) : EndsWithControl s := by
  refine ⟨e, br, hpower, hbright, ?_, ?_⟩
  · rw [hwire]
    rfl
  · rw [hwire, ← controlCommand_brightness]
    rfl

/-- Settles O50, by the effects an instruction can have on an idle block: of those that leave something in QUEUE only
INIT's and a render's belong to an operation that renders, and both send the registers as they stand. -/
theorem everyRenderEndsWithTheControlByte : Obligations.EveryRenderEndsWithTheControlByte := by
  intro i s t hr hq h hne
  change EndsWithControl t
  cases exec_effect h with
  | held | completed | lanes => exact absurd hq hne
  | levelSet | colonSet => cases hr
  | called q wire => simp [firstPrim_of_isRender hr] at wire
  | initialized => exact endsWithControl_of_renderTransactions rfl rfl (wireTransactions_initSeq _)
  | rendered f _ _ power brightness =>
    exact endsWithControl_of_renderTransactions power brightness (wireTransactions_renderSeq _ _ _)

end Sys2Proof.Machine
end

section
/-! SUPPORT. The 7-segment encoder (42_segment_encoder.md R150 to R164): each encoder as one glyph per position, and
bit 7 of what it answers. -/

namespace Sys2Proof

/-! ### Frames by position -/

@[simp] theorem Frame.get_ofFn {g : Nat → Byte} {i : Nat} (h : i < 4) : (Frame.ofFn g).get i = g i := by
  interval_cases i <;> rfl

/-- A frame has the positions 0 to 3 only. -/
theorem Frame.ofFn_congr {g h : Nat → Byte} (hgh : ∀ i < 4, g i = h i) : Frame.ofFn g = Frame.ofFn h := by
  simp only [Frame.ofFn, hgh, Nat.reduceLT]

theorem Frame.of_mem_toList_ofFn {P : Byte → Prop} {g : Nat → Byte} {b : Byte} (hg : ∀ i, P (g i))
    (hb : b ∈ (Frame.ofFn g).toList) : P b := by
  simp only [Frame.toList, Frame.ofFn, List.mem_cons, List.not_mem_nil, or_false] at hb
  obtain rfl | rfl | rfl | rfl := hb <;> exact hg _

end Sys2Proof

namespace Sys2Proof.Machine

variable {p : Params}

/-! ### ENC_DIGIT (42_segment_encoder.md R156) -/

theorem encDigit_decimal {n : Nat} (h : n < 10) : encDigit p n = digitGlyphs.getD n 0x00 :=
  if_pos (by omega)

theorem encDigit_hex {n : Nat} (h : n < 6) :
    encDigit p (10 + n : Nat) = if p.hexDigits = false then 0x00 else hexGlyphs.getD n 0x00 := by
  have hindex : ((10 + n : Nat) : Int).toNat - 10 = n := by omega
  rw [encDigit, if_neg (by omega), hindex]
  cases p.hexDigits with
  | false => exact if_neg (by simp)
  | true => exact if_pos ⟨by omega, by omega, rfl⟩

theorem encDigit_outside {d : Int} (h : d < 0 ∨ 15 < d) : encDigit p d = 0x00 := by
  rw [encDigit, if_neg (by omega), if_neg (by omega)]

/-- Settles O25, by the entries of the two tables and the integers outside 0 to 15. -/
theorem encDigitGivesTheGlyph : Obligations.EncDigitGivesTheGlyph := by
  intro p d
  by_cases hout : d < 0 ∨ 15 < d
  · have hne (n : Int) (h0 : 0 ≤ n) (h15 : n ≤ 15) : d ≠ n := by omega
    simp [encDigit_outside hout, hne]
  · obtain ⟨n, rfl⟩ := Int.eq_ofNat_of_zero_le (a := d) (by omega)
    obtain hn | ⟨m, rfl, hm⟩ : n < 10 ∨ ∃ m, n = 10 + m ∧ m < 6 := by
      by_cases hn : n < 10
      · exact .inl hn
      · exact .inr ⟨n - 10, by omega, by omega⟩
    · rw [encDigit_decimal hn]
      interval_cases n <;> rfl
    · rw [encDigit_hex hm]
      interval_cases m <;> rfl

/-! ### ENC_CHAR (42_segment_encoder.md R157) -/

theorem charGlyph_eq_none {c : Char} (hspace : c ≠ ' ') (hhyphen : c ≠ '-') (hunder : c ≠ '_') : charGlyph c = none := by
  rw [charGlyph, if_neg hspace, if_neg hhyphen, if_neg hunder]

theorem encChar_of_charGlyph_none {c : Char} (h : charGlyph c = none) : encChar p c = (letterGlyph p c).getD 0x00 := by
  rw [encChar, h]

theorem encChar_of_charGlyph_some {c : Char} {g : Byte} (h : charGlyph c = some g) : encChar p c = g := by
  rw [encChar, h]

/-- The three characters of CHAR_GLYPH are outside the letters. -/
theorem charGlyph_eq_none_of_letter {c : Char}
    (h : 65 ≤ c.toNat ∧ c.toNat ≤ 90 ∨ 97 ≤ c.toNat ∧ c.toNat ≤ 122) : charGlyph c = none := by
  apply charGlyph_eq_none <;> rintro rfl <;> revert h <;> decide

theorem encChar_upper {c : Char} {k : Nat} (hk : k < 26) (hc : c.toNat = 65 + k) :
    encChar p c = ((p.letters k).map fun g => g.1.setWidth 8).getD 0x00 := by
  rw [encChar_of_charGlyph_none (charGlyph_eq_none_of_letter (by omega)), letterGlyph, if_pos (by omega), hc,
    Nat.add_sub_cancel_left]

theorem encChar_lower {c : Char} {k : Nat} (hk : k < 26) (hc : c.toNat = 97 + k) :
    encChar p c = ((p.letters k).map fun g => g.2.setWidth 8).getD 0x00 := by
  rw [encChar_of_charGlyph_none (charGlyph_eq_none_of_letter (by omega)), letterGlyph, if_neg (by omega),
    if_pos (by omega), hc, Nat.add_sub_cancel_left]

theorem encChar_other {c : Char} (hhyphen : c ≠ '-') (hunder : c ≠ '_') (hupper : ¬ (65 ≤ c.toNat ∧ c.toNat ≤ 90))
    (hlower : ¬ (97 ≤ c.toNat ∧ c.toNat ≤ 122)) : encChar p c = 0x00 := by
  by_cases hspace : c = ' '
  · subst hspace
    exact encChar_of_charGlyph_some rfl
  · rw [encChar_of_charGlyph_none (charGlyph_eq_none hspace hhyphen hunder), letterGlyph, if_neg hupper, if_neg hlower]
    rfl

/-- Settles O26: one clause per row of CHAR_GLYPH, per case of the letters, and for what is left. -/
theorem encCharLooksUpItsTables : Obligations.EncCharLooksUpItsTables := by
  intro p c
  refine ⟨encChar p c, rfl, ?_, ?_, ?_, fun k hk hc => ?_, fun k hk hc => ?_, encChar_other⟩
  · rintro rfl
    exact encChar_of_charGlyph_some rfl
  · rintro rfl
    exact encChar_of_charGlyph_some rfl
  · rintro rfl
    exact encChar_of_charGlyph_some rfl
  · rw [encChar_upper hk hc]
    cases p.letters k <;> rfl
  · rw [encChar_lower hk hc]
    cases p.letters k <;> rfl

/-! ### ENC_NUMBER (42_segment_encoder.md R158 to R161) -/

theorem signPosition_eq (k : Nat) : signPosition k = k - 1 := by
  unfold signPosition
  split <;> omega

theorem clamp_neg_iff (value : Int) : clamp value (-999) 9999 < 0 ↔ value < 0 := by
  unfold clamp
  omega

/-- ENC_NUMBER at one position: the sign, a blank, or the digit's glyph. -/
def numberLane (p : Params) (value : Int) (digits : List Nat) (k j : Nat) : Byte :=
  if value < 0 ∧ j = signPosition k then minusGlyph
  else if j < k then 0x00
  else encDigit p (digits.getD j 0 : Nat)

/-- Position by position, the blanks overwrite the digits and the sign overwrites either. -/
theorem encNumber_eq (p : Params) (value : Int) (lz : Bool) :
    encNumber p value lz =
      let d := decimalDigits (clamp value (-999) 9999).natAbs
      Frame.ofFn (numberLane p value d (blankCount d lz)) := by
  by_cases hneg : value < 0
  · rw [encNumber, if_pos ((clamp_neg_iff value).2 hneg)]
    refine Frame.ofFn_congr fun j hj => ?_
    simp [numberLane, Frame.blank, hneg, hj]
  · rw [encNumber, if_neg (mt (clamp_neg_iff value).1 hneg)]
    refine Frame.ofFn_congr fun j hj => ?_
    simp [numberLane, hneg, hj]

theorem blankCount_le_three (digits : List Nat) (lz : Bool) : blankCount digits lz ≤ 3 := by
  cases lz with
  | true => exact Nat.zero_le 3
  | false => exact (List.takeWhile_prefix _).length_le.trans (List.length_take_le 3 digits)

/-- What zero suppression blanks is a 0 digit: the blanked digits are the first of the digits. -/
theorem getD_eq_zero_of_lt_blankCount {digits : List Nat} {lz : Bool} {j : Nat} (h : j < blankCount digits lz) :
    digits.getD j 0 = 0 := by
  cases lz with
  | true => exact absurd h (Nat.not_lt_zero j)
  | false =>
    have hfirst : (digits.take 3).takeWhile (· == 0) <+: digits :=
      (List.takeWhile_prefix _).trans (List.take_prefix 3 _)
    have hzero := List.mem_takeWhile_imp (List.getElem_mem h)
    rw [hfirst.getElem h] at hzero
    rw [List.getD_eq_getElem _ _ (h.trans_le hfirst.length_le)]
    exact eq_of_beq hzero

/-- Zero suppression stops at the first digit of positions 0 to 2 that is not 0. -/
theorem getD_blankCount_ne_zero {d0 d1 d2 d3 : Nat} (h : blankCount [d0, d1, d2, d3] false < 3) :
    [d0, d1, d2, d3].getD (blankCount [d0, d1, d2, d3] false) 0 ≠ 0 := by
  have hcount : blankCount [d0, d1, d2, d3] false =
      if d0 = 0 then if d1 = 0 then if d2 = 0 then 3 else 2 else 1 else 0 := by
    rw [blankCount, if_neg Bool.false_ne_true]
    simp only [List.take, List.takeWhile_cons, List.takeWhile_nil, beq_iff_eq]
    split_ifs <;> rfl
  rw [hcount] at h ⊢
  split_ifs at h ⊢ with h0 h1 h2
  · exact absurd h (lt_irrefl 3)
  · exact h2
  · exact h1
  · exact h0

/-- A position of ENC_NUMBER in terms of the digit table, as every decimal digit is in it. -/
theorem numberLane_of_lt {value : Int} {digits : List Nat} {k j : Nat} (h : digits.getD j 0 < 10) :
    numberLane p value digits k j =
      if value < 0 ∧ j = k - 1 then 0x40 else if j < k then 0x00 else digitGlyphs.getD (digits.getD j 0) 0x00 := by
  rw [numberLane, encDigit_decimal h, signPosition_eq]
  rfl

/-- Settles O27, with the digits of `decimalDigits` and the count of `blankCount`. -/
theorem encNumberPlacesDigitsAndSign : Obligations.EncNumberPlacesDigitsAndSign := by
  intro p value lz
  have hmag : (clamp value (-999) 9999).natAbs ≤ 9999 := by
    unfold clamp
    omega
  have habs : ((clamp value (-999) 9999).natAbs : Int)
      = max (min (max value (-999)) 9999) (- min (max value (-999)) 9999) := by
    unfold clamp
    omega
  have hframe := encNumber_eq p value lz
  generalize (clamp value (-999) 9999).natAbs = a at hmag habs hframe
  refine ⟨a, a / 1000 % 10, a / 100 % 10, a / 10 % 10, a % 10, blankCount (decimalDigits a) lz, _, hframe, habs,
    by omega, by omega, by omega, by omega, by omega, ?_, ?_, ?_⟩
  · rintro rfl
    rfl
  · rintro rfl
    have hstop (j : Nat) (hj : j < 3) (hk : blankCount (decimalDigits a) false = j) : (decimalDigits a).getD j 0 ≠ 0 :=
      hk ▸ getD_blankCount_ne_zero (hk.trans_lt hj)
    exact ⟨blankCount_le_three _ _, getD_eq_zero_of_lt_blankCount, getD_eq_zero_of_lt_blankCount,
      getD_eq_zero_of_lt_blankCount, hstop 0 (by decide), hstop 1 (by decide), hstop 2 (by decide)⟩
  · have hdigit (n : Nat) : n % 10 < 10 := Nat.mod_lt _ (by decide)
    exact ⟨numberLane_of_lt (hdigit _), numberLane_of_lt (hdigit _), numberLane_of_lt (hdigit _),
      numberLane_of_lt (hdigit _)⟩

/-- Settles O28: a clamped negative value has at most three digits, and the sign stands on the last blanked position. -/
theorem signOverwritesNoSignificantDigit : Obligations.SignOverwritesNoSignificantDigit := by
  intro value lz hneg
  have hmag : (clamp value (-999) 9999).natAbs ≤ 999 := by
    unfold clamp
    omega
  have hframe := fun p => encNumber_eq p value lz
  generalize (clamp value (-999) 9999).natAbs = a at hmag hframe
  intro d k
  have hthousands : d.getD 0 0 = 0 := by
    change a / 1000 % 10 = 0
    omega
  have hle : signPosition k ≤ 2 := by
    have hk : k ≤ 3 := blankCount_le_three d lz
    rw [signPosition_eq]
    omega
  have hzero : d.getD (signPosition k) 0 = 0 := by
    rcases Nat.eq_zero_or_pos k with hk | hk
    · rwa [hk]
    · exact getD_eq_zero_of_lt_blankCount (lz := lz) (by rw [signPosition_eq]; exact Nat.sub_one_lt_of_lt hk)
  refine ⟨hthousands, hzero, hle, fun p => ?_⟩
  rw [hframe p, Frame.get_ofFn (by omega)]
  exact if_pos ⟨hneg, rfl⟩

/-! ### APPLY_COLON and ENC_TIME (42_segment_encoder.md R162, R163) -/

theorem applyColon_true (f : Frame) : applyColon f true = ⟨f.f0, f.f1 ||| 0x80, f.f2, f.f3⟩ := rfl

theorem applyColon_false (f : Frame) : applyColon f false = f := rfl

/-- Settles O29, by the two values of the flag; setting the bit twice is setting it once. -/
theorem applyColonTouchesLaneOneOnly : Obligations.ApplyColonTouchesLaneOneOnly := by
  refine ⟨fun f => ⟨applyColon_true f, applyColon_false f⟩, fun f c => ?_, fun f c hbit => ?_⟩
  · cases c with
    | false => rfl
    | true => simp only [applyColon_true, BitVec.or_assoc, BitVec.or_self]
  · cases c with
    | false => exact hbit
    | true => rw [applyColon_true, BitVec.getLsbD_or, hbit, Bool.true_or]

/-- A value clamped to 0 up to a bound, as a natural number. -/
theorem exists_clamp_eq_natCast (v : Int) (hi : Nat) : ∃ n : Nat, n ≤ hi ∧ clamp v 0 hi = n :=
  ⟨(clamp v 0 hi).toNat, by unfold clamp; omega, by unfold clamp; omega⟩

/-- The two digits ENC_TIME shows of a clamped value. -/
theorem encDigit_tens_units {n : Nat} (h : n < 100) :
    encDigit p ((n : Int) / 10) = digitGlyphs.getD (n / 10) 0x00 ∧
      encDigit p ((n : Int) % 10) = digitGlyphs.getD (n % 10) 0x00 :=
  ⟨encDigit_decimal (n := n / 10) (by omega), encDigit_decimal (n := n % 10) (by omega)⟩

/-- Settles O30, with the tens and units of the clamped values. -/
theorem encTimeShowsFourDigitsAndTheColon : Obligations.EncTimeShowsFourDigitsAndTheColon := by
  intro p m sec
  obtain ⟨m', hm', hclampM⟩ := exists_clamp_eq_natCast m 99
  obtain ⟨s', hs', hclampS⟩ := exists_clamp_eq_natCast sec 59
  obtain ⟨hm1, hm0⟩ := encDigit_tens_units (p := p) (n := m') (by omega)
  obtain ⟨hs1, hs0⟩ := encDigit_tens_units (p := p) (n := s') (by omega)
  refine ⟨m' / 10, m' % 10, s' / 10, s' % 10, by omega, by omega, by omega, by omega, ?_, ?_, ?_⟩
  · refine Eq.trans ?_ hclampM.symm
    omega
  · refine Eq.trans ?_ hclampS.symm
    omega
  · have htime : encTime p m sec = ⟨encDigit p ((m' : Int) / 10), encDigit p ((m' : Int) % 10) ||| 0x80,
        encDigit p ((s' : Int) / 10), encDigit p ((s' : Int) % 10)⟩ := by
      rw [← hclampM, ← hclampS]
      rfl
    rw [htime, hm1, hm0, hs1, hs0]
    rfl

/-! ### ENC_TEXT (42_segment_encoder.md R164) -/

theorem padText_getD (t : List Char) {i : Nat} (h : i < 4) : (padText t).getD i ' ' = t.getD i ' ' := by
  unfold padText
  by_cases ht : i < t.length
  · rw [List.getD_append _ _ _ _ (by rw [List.length_take]; omega), List.getD_eq_getElem?_getD,
      List.getElem?_take_of_lt h, ← List.getD_eq_getElem?_getD]
  · rw [List.getD_append_right _ _ _ _ (by rw [List.length_take]; omega), List.getD_eq_default t _ (by omega),
      List.getD_eq_getElem?_getD, List.getElem?_getD_replicate_default_eq]

theorem encText_eq (p : Params) (t : List Char) : encText p t = Frame.ofFn fun i => encTextChar p (t.getD i ' ') :=
  Frame.ofFn_congr fun _ hi => congrArg (encTextChar p) (padText_getD t hi)

theorem encTextChar_digit {c : Char} (h : 48 ≤ c.toNat ∧ c.toNat ≤ 57) :
    encTextChar p c = digitGlyphs.getD (c.toNat - 48) 0x00 := by
  rw [encTextChar, if_pos h, encDigit_decimal (by omega)]

theorem encTextChar_other {c : Char} (h : ¬ (48 ≤ c.toNat ∧ c.toNat ≤ 57)) : encTextChar p c = encChar p c :=
  if_neg h

/-- Settles O31, position by position: past the end of the text, at a digit, and at any other character. -/
theorem encTextIsLeftAlignedAndCut : Obligations.EncTextIsLeftAlignedAndCut := by
  intro p text lane
  have hlane (i : Nat) : encTextChar p (text.getD i ' ') = lane i := by
    rw [List.getD_eq_getElem?_getD]
    unfold lane
    cases text[i]? with
    | none => rfl
    | some c =>
      by_cases hdigit : 48 ≤ c.toNat ∧ c.toNat ≤ 57
      · exact (encTextChar_digit hdigit).trans (if_pos hdigit).symm
      · exact (encTextChar_other hdigit).trans (if_neg hdigit).symm
  simp only [encText_eq, hlane]
  rfl

/-! ### Bit 7 of what the encoders answer (42_segment_encoder.md R155) -/

/-- A lookup that answers 0x00 outside its table has bit 7 clear if the table has. -/
theorem colonBitClear_getD {glyphs : List Byte} (h : ∀ g ∈ glyphs, g.getLsbD 7 = false) (i : Nat) :
    (glyphs.getD i 0x00).getLsbD 7 = false := by
  by_cases hi : i < glyphs.length
  · rw [List.getD_eq_getElem _ _ hi]
    exact h _ (List.getElem_mem hi)
  · rw [List.getD_eq_default _ _ (by omega)]
    rfl

theorem colonBitClear_encDigit (p : Params) (d : Int) : (encDigit p d).getLsbD 7 = false := by
  unfold encDigit
  split_ifs
  · exact colonBitClear_getD (by decide) _
  · exact colonBitClear_getD (by decide) _
  · rfl

/-- The letters' glyphs are 7 bits wide. -/
theorem colonBitClear_letterGlyph (p : Params) (c : Char) : ((letterGlyph p c).getD 0x00).getLsbD 7 = false := by
  unfold letterGlyph
  split_ifs
  · cases p.letters (c.toNat - 65) with
    | none => rfl
    | some g => simp
  · cases p.letters (c.toNat - 97) with
    | none => rfl
    | some g => simp
  · rfl

theorem colonBitClear_charGlyph {c : Char} {g : Byte} (h : charGlyph c = some g) : g.getLsbD 7 = false := by
  unfold charGlyph at h
  split_ifs at h <;> cases h <;> rfl

theorem colonBitClear_encChar (p : Params) (c : Char) : (encChar p c).getLsbD 7 = false := by
  cases hglyph : charGlyph c with
  | none =>
    rw [encChar_of_charGlyph_none hglyph]
    exact colonBitClear_letterGlyph p c
  | some g =>
    rw [encChar_of_charGlyph_some hglyph]
    exact colonBitClear_charGlyph hglyph

theorem colonBitClear_numberLane (value : Int) (digits : List Nat) (k j : Nat) :
    (numberLane p value digits k j).getLsbD 7 = false := by
  unfold numberLane
  split_ifs
  · rfl
  · rfl
  · exact colonBitClear_encDigit p _

theorem colonBitClear_encTextChar (p : Params) (c : Char) : (encTextChar p c).getLsbD 7 = false := by
  unfold encTextChar
  split_ifs
  · exact colonBitClear_encDigit p _
  · exact colonBitClear_encChar p c

/-- Settles O32, encoder by encoder; a frame has the bit clear if every position has. -/
theorem encodersLeaveTheColonBitClear : Obligations.EncodersLeaveTheColonBitClear := by
  refine fun p => ⟨colonBitClear_encDigit p, colonBitClear_encChar p, fun value lz b hb => ?_, fun t b hb => ?_⟩
  · rw [encNumber_eq] at hb
    exact Frame.of_mem_toList_ofFn (P := fun b => b.getLsbD 7 = false) (fun _ => colonBitClear_numberLane _ _ _ _) hb
  · exact Frame.of_mem_toList_ofFn (P := fun b => b.getLsbD 7 = false) (fun _ => colonBitClear_encTextChar p _) hb

end Sys2Proof.Machine
end

section
/-! SUPPORT. The session operations (43_session_ops.md R190 to R201): what acceptance answers in each of its cases, what
an operation's own effect is on the lines a block rests with, and a render's run to completion. -/

namespace Sys2Proof.Machine

open Sys2Proof.Safety

variable {s t : State} {i : Instr} {p : Params}

/-! ### The step around exec (43_session_ops.md R190, 10_state.md R30) -/

section Port

variable {w : PortWord} {rest : List PortWord} (hp : s.port = w :: rest) (hd : decode w = .ok i)
include hp hd

/-- An idle block takes the presented word and executes it. -/
theorem step_of_idle (hq : s.queue = []) : step s = exec i (s.takeWord rest) := by
  simp [step, hp, hd, State.isBusy_false.mpr hq]

/-- A busy block asks `holdWhileBusy`. -/
theorem step_of_busy (hq : s.queue ≠ []) : step s = holdWhileBusy (exec i s) s := by
  simp [step, hp, hd, State.isBusy_iff.mpr hq]

end Port

theorem step_of_nothingPresented (hp : s.port = []) : step s = advance s := by simp [step, hp]

/-- What is not refused is held, and the sequencer goes on. -/
theorem holdWhileBusy_of_not_refused {o : Out} (h : ∀ r, o ≠ .refused r) : holdWhileBusy o s = advance s := by
  cases o with
  | next | fault => rfl
  | refused r => exact absurd rfl (h r)

/-- Settles O3, clause by clause. -/
theorem stepRunsTheDecodedInstruction : Obligations.StepRunsTheDecodedInstruction := by
  refine fun s => ⟨step_of_nothingPresented, fun hp hq => ?_, fun w rest i => step_of_idle,
    fun w rest i r hp hd hq hr => ?_, fun w rest i hp hd hq hr => ?_, fun w rest r => step_of_undecodable⟩
  · rw [step_of_nothingPresented hp, advance_idle hq]
  · rw [step_of_busy hp hd hq, hr, holdWhileBusy]
  · rw [step_of_busy hp hd hq, holdWhileBusy_of_not_refused hr]

/-! ### INIT (43_session_ops.md R192) -/

theorem opInit_busy {clk dio : PinId} (hne : clk ≠ dio) (hq : s.queue ≠ []) : opInit p clk dio s = .next s := by
  rw [opInit, if_neg hne, if_pos (State.isBusy_iff.mpr hq)]

theorem opInit_idle {clk dio : PinId} (hne : clk ≠ dio) (hq : s.queue = []) :
    opInit p clk dio s = .next { s.clearAcks.initSession p clk dio with queue := initSeq p, opActive := true } := by
  rw [opInit, if_neg hne, if_neg (by simp [State.isBusy_false.mpr hq]), State.emit_of_ne_nil _ (initSeq_ne_nil p)]

theorem initLevel_eq (p : Params) : initLevel p = if p.initBrightness = .three then 3 else 4 := by
  unfold initLevel
  cases p.initBrightness <;> rfl

/-- Settles O8: `opInit_idle` at the block's own parameters. -/
theorem initConfiguresAndClears : Obligations.InitConfiguresAndClears := by
  intro clk dio s hne hq
  have hlevel : initLevel Config.params = if Config.initBrightness = .three then 3 else 4 := initLevel_eq _
  have hlevelInt : ((initLevel Config.params).val : Int) = if Config.initBrightness = .three then 3 else 4 := by
    rw [hlevel]
    split <;> rfl
  rw [← hlevel, ← hlevelInt]
  exact opInit_idle hne hq

/-! ### A busy block holds (43_session_ops.md R190 step 2) -/

/-- Settles O5: INIT compares its pins first, the other operations and the direct calls hold at once. -/
theorem busyBlockHolds : Obligations.BusyBlockHolds := by
  intro i s hwf hq h
  rcases h with ⟨hreq, hres⟩ | hwire
  · cases i with
    | init clk dio => exact opInit_busy (of_decide_eq_true hwf) hq
    | setBrightness | clear | showNumber | showTime | showRaw | showText | setColon => exact accept_busy hq
    | reservedReq code => exact absurd rfl (hres code)
    | _ => cases hreq
  · obtain ⟨first, hfirst⟩ := Option.isSome_iff_exists.mp hwire
    rw [exec_eq_callDirect hfirst, callDirect_busy hq]

/-! ### Strict range (43_session_ops.md R201) -/

theorem inRange_iff {v lo hi : Int} : inRange v lo hi = true ↔ lo ≤ v ∧ v ≤ hi := by simp [inRange]

theorem levelInRange_iff {level : Int} : levelInRange level = true ↔ 0 ≤ level ∧ level ≤ 7 := inRange_iff

theorem numberInRange_iff {value : Int} : numberInRange value = true ↔ -999 ≤ value ∧ value ≤ 9999 := inRange_iff

theorem timeInRange_iff {m sec : Int} :
    timeInRange m sec = true ↔ 0 ≤ m ∧ m ≤ 99 ∧ 0 ≤ sec ∧ sec ≤ 59 := by
  simp only [timeInRange, Bool.and_eq_true, inRange_iff, and_assoc]

theorem rawInRange_iff {b0 b1 b2 b3 : Int} :
    rawInRange b0 b1 b2 b3 = true ↔
      0 ≤ b0 ∧ b0 ≤ 255 ∧ 0 ≤ b1 ∧ b1 ≤ 255 ∧ 0 ≤ b2 ∧ b2 ≤ 255 ∧ 0 ≤ b3 ∧ b3 ≤ 255 := by
  simp only [rawInRange, Bool.and_eq_true, inRange_iff, and_assoc]

/-- An idle, initialized block with STRICT_RANGE completes an operation out of range with code 3 and no other effect
(43_session_ops.md R190 step 5). -/
theorem accept_outOfRange {ok : Bool} {body : State → Out} (hs : p.strictRange = true) (hq : s.queue = [])
    (hi : s.initialized = true) (hok : ¬ ok = true) :
    accept p ok body s = .next (s.clearAcks.complete .outOfRange) := by
  simp [accept, State.isBusy, hs, hq, hi, hok]

/-- Settles O7: each range check is its range. -/
theorem strictRangeCompletesWithOutOfRange : Obligations.StrictRangeCompletesWithOutOfRange := by
  refine ⟨fun p s hs hq hi => ⟨fun level en h => ?_, fun value lz h => ?_, fun m sec h => ?_, fun b0 b1 b2 b3 h => ?_⟩,
    fun _ _ _ => rfl, fun _ _ _ => rfl, fun _ _ _ => rfl, fun _ _ _ _ _ => rfl⟩
  · exact accept_outOfRange hs hq hi (mt levelInRange_iff.mp h)
  · exact accept_outOfRange hs hq hi (mt numberInRange_iff.mp h)
  · exact accept_outOfRange hs hq hi (mt timeInRange_iff.mp h)
  · exact accept_outOfRange hs hq hi (mt rawInRange_iff.mp h)

/-! ### An operation's own effect on idle-high lines -/

/-- Settles O15: `emitColonFlag` is `complete`, with ACK_LOG just cleared. -/
theorem setColonCompletesAtAcceptance : Obligations.SetColonCompletesAtAcceptance := fun _ _ hq hi =>
  accept_body hq hi fun _ => rfl

section Queued

variable {e : Bool} {br : Fin 8} {c : Bool}

/-- With both lines high, START's precondition, the list is queued. -/
theorem emitFramed_linesHigh {q : List MicroAction} (hclk : s.clkOut = some true) (hdio : s.dioOut = some true)
    (hne : q ≠ []) : emitFramed s q = .next { s with queue := q, opActive := true } := by
  have hready : s.ready .start = true := State.linesHigh_iff.mpr ⟨hclk, hdio⟩
  rw [emitFramed, if_pos hready, State.emit_of_ne_nil s hne]

/-- A read of a register that holds a value goes on with it. -/
theorem need_of_eq_some {α : Type} {r : Reg} {o : Option α} {a : α} {k : α → Out} (h : o = some a) :
    need r o k = k a := by
  rw [h, need_some]

theorem emitRender_linesHigh (f : Frame) (hpower : s.power = some e) (hbright : s.brightness = some br)
    (hclk : s.clkOut = some true) (hdio : s.dioOut = some true) :
    emitRender f s = .next { s with queue := renderSeq f e (br.val : Int), opActive := true } :=
  (need_of_eq_some hpower).trans <| (need_of_eq_some hbright).trans <|
    emitFramed_linesHigh hclk hdio (renderSeq_ne_nil _ _ _)

theorem emitLevel_linesHigh (level : Fin 8) (enabled : Bool) (hclk : s.clkOut = some true)
    (hdio : s.dioOut = some true) :
    emitLevel level enabled s =
      .next { s.setLevel level enabled with queue := cmdCtrlSeq enabled (level.val : Int), opActive := true } :=
  emitFramed_linesHigh hclk hdio (cmdCtrlSeq_ne_nil _ _)

variable (h : ReadyWith s e br c)
include h

/-- Between two operations the block accepts what is in range, or not checked. -/
theorem accept_ready {ok : Bool} {body : State → Out} (hr : p.strictRange = true → ok = true) :
    accept p ok body s = body s.clearAcks := accept_body h.idle h.initialized hr

/-- A render between two operations, with ACK_LOG cleared by acceptance. -/
theorem emitRender_ready (f : Frame) :
    emitRender f s.clearAcks =
      .next { s with ackLog := [], queue := renderSeq f e (br.val : Int), opActive := true } :=
  emitRender_linesHigh f h.power h.brightness h.clkHigh h.dioHigh

/-- SHOW_NUMBER and SHOW_TEXT apply COLON first (43_session_ops.md R195, R198). -/
theorem emitColoned_ready (f : Frame) :
    emitColoned f s.clearAcks =
      .next { s with ackLog := [], queue := renderSeq (applyColon f c) e (br.val : Int), opActive := true } :=
  (need_of_eq_some h.colon).trans (emitRender_ready h _)

end Queued

/-! ### The operations that queue something (43_session_ops.md R193 to R198) -/

/-- Settles O10: CLEAR has no range check, and it renders `Frame.zero`. -/
theorem clearRendersBlank : Obligations.ClearRendersBlank := fun _ _ _ _ h =>
  (accept_ready h fun _ => rfl).trans (emitRender_ready h _)

/-- Settles O11, by the range check and `emitColoned`. -/
theorem showNumberRendersTheNumber : Obligations.ShowNumberRendersTheNumber := fun _ _ _ _ _ _ h hr =>
  (accept_ready h fun hs => numberInRange_iff.mpr (hr hs)).trans (emitColoned_ready h _)

/-- Settles O12: `emitRender`, which does not read COLON. -/
theorem showTimeRendersTheTime : Obligations.ShowTimeRendersTheTime :=
  fun _ _ _ _ _ hq hi hpower hbright hclk hdio hr =>
    (accept_body hq hi fun hs => timeInRange_iff.mpr (hr hs)).trans
      (emitRender_linesHigh _ hpower hbright hclk hdio)

/-- A raw byte operand is its remainder (43_session_ops.md R197, 92_eei_decisions.md D26). -/
theorem toNat_maskByte (b : Int) : ((maskByte b).toNat : Int) = b % 256 := by
  rw [maskByte, toNat_maskBits]
  exact Int.toNat_of_nonneg (Int.emod_nonneg b (by decide))

/-- Settles O13: the frame is `rawFrame`. -/
theorem showRawRendersTheMaskedBytes : Obligations.ShowRawRendersTheMaskedBytes := fun b0 b1 b2 b3 _ _ _ _ h hr =>
  ⟨rawFrame b0 b1 b2 b3, ⟨toNat_maskByte b0, toNat_maskByte b1, toNat_maskByte b2, toNat_maskByte b3⟩,
    (accept_ready h fun hs => rawInRange_iff.mpr (hr hs)).trans (emitRender_ready h _)⟩

/-- Settles O14, by `emitColoned` with no range check. -/
theorem showTextRendersTheText : Obligations.ShowTextRendersTheText := fun _ _ _ _ _ h =>
  (accept_ready h fun _ => rfl).trans (emitColoned_ready h _)

theorem clampLevel_val (level : Int) : ((clampLevel level).val : Int) = min (max level 0) 7 := by
  simp only [clampLevel, clamp, Fin.ofNat]
  omega

/-- The control byte of a level, its fields joined (30_encoding.md R74). -/
theorem controlCommand_level (e : Bool) (lv : Fin 8) :
    controlCommand e (maskBrightness (lv.val : Int)) =
      0x80 ||| (if e then 0x08 else 0x00) ||| BitVec.ofNat 8 lv.val := by
  revert e lv
  decide

/-- Settles O9: the level is `clampLevel`'s, and the one transaction is CMD_CTRL's. -/
theorem setBrightnessSendsTheControlCommand : Obligations.SetBrightnessSendsTheControlCommand := by
  intro level enabled e br c s h hr
  refine ⟨clampLevel level, clampLevel_val level, ?_⟩
  rw [← controlCommand_level]
  exact (accept_ready h fun hs => levelInRange_iff.mpr (hr hs)).trans
    (emitLevel_linesHigh _ _ h.clkHigh h.dioHigh)

/-! ### A render runs to completion (43_session_ops.md R191) -/

theorem isRequest_of_isRender (h : isRender i = true) : i.isRequest = true := by
  cases i with
  | init | clear | showNumber | showTime | showRaw | showText => rfl
  | _ => cases h

theorem samples_append (a b : List MicroAction) : samples (a ++ b) = samples a + samples b := List.countP_append

/-- One sample per byte, in its ACK slot (40_bus_transport.md R110). -/
theorem samples_flatMap_writeByteSeq (bytes : List Byte) : samples (bytes.flatMap writeByteSeq) = bytes.length := by
  have hbyte (b : Byte) : samples (writeByteSeq b) = 1 := rfl
  induction bytes with
  | nil => rfl
  | cons b bytes ih => rw [List.flatMap_cons, samples_append, hbyte, ih, List.length_cons, Nat.add_comm]

theorem samples_transaction (bytes : List Byte) : samples (transaction bytes) = bytes.length := by
  have hstart : samples startSeq = 0 := rfl
  have hstop : samples stopSeq = 0 := rfl
  rw [transaction, samples_append, samples_append, samples_flatMap_writeByteSeq, hstart, hstop, Nat.zero_add,
    Nat.add_zero]

/-- RENDER takes ten samples, one for each byte of its six transactions (41_command_layer.md R136). -/
theorem samples_renderSeq (f : Frame) (e : Bool) (br : Int) : samples (renderSeq f e br) = 10 := by
  simp [renderSeq, cmdDataSeq, cmdAddrDataSeq, cmdAddrSeq, cmdCtrlSeq, cmdCtrlMaskedSeq, samples_append,
    samples_transaction]

/-- INIT takes none beside its render's (43_session_ops.md R192). -/
theorem samples_initSeq (p : Params) : samples (initSeq p) = 10 := by
  rw [initSeq, samples_append, samples_renderSeq]
  rfl

/-- A render that an idle block accepts starts with ACK_LOG empty and has ten samples before it. -/
theorem exec_render_samples (hr : isRender i = true) (hq : s.queue = []) (h : exec i s = .next t)
    (hne : t.queue ≠ []) : t.ackLog = [] ∧ samples t.queue = 10 := by
  cases exec_effect h with
  | held | completed | lanes => exact absurd hq hne
  | levelSet | colonSet => cases hr
  | called q wire => simp [firstPrim_of_isRender hr] at wire
  | initialized => exact ⟨rfl, samples_initSeq _⟩
  | rendered f => exact ⟨rfl, samples_renderSeq _ _ _⟩

/-- A render other than INIT leaves the status outputs (43_session_ops.md R200). -/
theorem exec_render_status (hr : isRender i = true) (hi : isInit i = false) (h : exec i s = .next t) :
    t.status = s.status := by
  obtain ⟨hpins, hlevel, hcolon⟩ := sessionRegisterWriters i s t h
  obtain ⟨hclk, hdio, hinit⟩ := hpins hi
  obtain ⟨hbright, hpower⟩ := hlevel hi (by rintro l e rfl; cases hr)
  have hcolon := hcolon hi (by rintro c rfl; cases hr)
  simp only [State.status, hclk, hdio, hinit, hbright, hpower, hcolon]

/-- INIT on an idle block sets every status output (43_session_ops.md R192). -/
theorem exec_init_status {clk dio : PinId} (hq : s.queue = []) (h : exec (.init clk dio) s = .next t) :
    t.status =
      { brightness := some (if Config.initBrightness = .three then 3 else 4), power := some true, colon := some false
        initialized := true, clkPin := some clk, dioPin := some dio } := by
  have hne : clk ≠ dio := by
    intro heq
    have hrefused : exec (.init clk dio) s = .refused .samePins := if_pos heq
    cases hrefused.symm.trans h
  cases (initConfiguresAndClears clk dio s hne hq).symm.trans h
  rfl

/-- Settles O58: acceptance keeps the invariant, and from there the QUEUE runs to its end (`run_queue`), each step the
sequencer's because nothing is presented. -/
theorem renderRequestRunsToCompletion : Obligations.RenderRequestRunsToCompletion := by
  intro i s t hs hq hport hr h hne
  have hsafe := exec_request_safe hs hq (isRequest_of_isRender hr)
  rw [h] at hsafe
  obtain ⟨⟨-, -, -, -, hportKept, -⟩, -, -⟩ := execFrame i s t h
  obtain ⟨hacks, hsamples⟩ := exec_render_samples hr hq h hne
  obtain ⟨a, rest, hqueue⟩ := List.exists_cons_of_ne_nil hne
  obtain ⟨u, acks, hu⟩ := run_queue hsafe hqueue fun v hv _ =>
    step_of_nothingPresented (hv.trans (hportKept.trans hport))
  rw [← hqueue] at hu
  have hresult := hu.result
  rw [hacks, List.nil_append] at hresult
  refine ⟨⟨u, acks, hu.run, hu.queue, hu.acks.trans hsamples, hresult, hu.lines, hu.status⟩,
    fun hi => exec_render_status hr hi h, ?_⟩
  rintro clk dio rfl
  exact exec_init_status hq h

end Sys2Proof.Machine
end

section
/-! SUPPORT. Conditions and safety (60_exceptions.md R230 to R233): the condition codes' numbers, what an operation answers
before INIT, and the session invariant along a run from power-up. -/

namespace Sys2Proof.Safety

open Sys2Proof.Machine

variable {s : State}

/-! ### Condition codes (60_exceptions.md R231) -/

/-- Settles O60: each number is `Cond.code` at its condition. -/
theorem conditionCodesAreNumbered : Obligations.ConditionCodesAreNumbered := ⟨rfl, rfl, rfl, rfl⟩

/-! ### Use before INIT (60_exceptions.md R233) -/

theorem uninitCond_eq (p : Params) :
    uninitCond p = if p.uninitPolicy = .noop then .uninitIgnored else .uninitError := by
  unfold uninitCond
  cases p.uninitPolicy <;> rfl

/-- An idle block before INIT completes an operation at acceptance, whatever its operands and its own effect
(43_session_ops.md R190 step 4). -/
theorem accept_uninitialized {p : Params} {ok : Bool} {body : State → Out} (hq : s.queue = [])
    (hi : s.initialized = false) : accept p ok body s = .next (s.clearAcks.complete (uninitCond p)) := by
  simp [accept, State.isBusy, hq, hi]

/-- Every operation but INIT goes through `accept`, with the block's own parameters. -/
theorem exec_uninitialized {i : Instr} (hr : i.isRequest = true) (hres : ∀ code, i ≠ .reservedReq code)
    (hinit : isInit i = false) (hq : s.queue = []) (hi : s.initialized = false) :
    exec i s = .next (s.clearAcks.complete (uninitCond Config.params)) := by
  cases i with
  | setBrightness | clear | showNumber | showTime | showRaw | showText | setColon => exact accept_uninitialized hq hi
  | init clk dio => cases hinit
  | reservedReq code => exact absurd rfl (hres code)
  | _ => cases hr

/-- Settles O6: `exec_uninitialized`, with the code that UNINIT_POLICY names. -/
theorem uninitializedUseCompletesWithItsCode : Obligations.UninitializedUseCompletesWithItsCode := by
  intro i s hr hres hinit hq hi
  have hcond : uninitCond Config.params = if Config.uninitPolicy = .noop then .uninitIgnored else .uninitError :=
    uninitCond_eq Config.params
  rw [← hcond]
  exact exec_uninitialized hr hres hinit hq hi

/-! ### Runs from power-up (60_exceptions.md R230, 70_reset_and_hazards.md R260) -/

/-- The session invariant holds after power-up, whatever requests are presented from there on (log 6). -/
theorem sessionInv_reset {ws : List PortWord} (hws : ws.all isRequestWord = true) :
    SessionInv { State.reset with port := ws } where
  requests := hws
  active := rfl
  uninit _ := ⟨rfl, rfl, rfl, rfl, rfl, rfl, rfl⟩
  live hi := by cases hi

/-- Every run keeps the invariant and does not fault, by induction on its number of steps. -/
theorem run_safe (hs : SessionInv s) (k : Nat) : Safe (Host.Core.run Sys2Proof.core k s) := by
  induction k generalizing s with
  | zero => exact hs
  | succ k ih =>
    have hsafe := step_safe hs
    cases hstep : step s with
    | next t =>
      rw [hstep] at hsafe
      exact run_of_next k hstep ▸ ih hsafe
    | fault r =>
      rw [hstep] at hsafe
      exact hsafe.elim
    | refused r => exact run_of_refused k hstep ▸ trivial

/-- Settles O56: the run starts in the invariant, so it is `Safe`. -/
theorem requestsFromPowerUpNeverFault : Obligations.RequestsFromPowerUpNeverFault :=
  fun _ k r hws => (run_safe (sessionInv_reset hws) k).noFault r

end Sys2Proof.Safety
end

section
/-! SUPPORT. Power-up and hazards (70_reset_and_hazards.md R260 to R270): the state after power-up, the Wait after every
pin write of the block's micro-action lists, and how many pin writes they make. -/

namespace Sys2Proof.Machine

open Sys2Proof.Safety

/-! ### Power-up (70_reset_and_hazards.md R260) -/

/-- Settles O1: each value is the one `State.reset` writes out. -/
theorem resetIsThePowerUpState : Obligations.ResetIsThePowerUpState :=
  ⟨rfl, rfl, rfl, rfl, rfl, rfl, rfl, rfl, rfl, rfl, rfl, rfl, rfl⟩

/-- Settles O2: `sessionInv_reset` with nothing presented. -/
theorem resetMeetsTheSessionInvariant : Obligations.ResetMeetsTheSessionInvariant := sessionInv_reset (ws := []) rfl

/-! ### The Wait after every pin write (70_reset_and_hazards.md R264) -/

/-- A list whose pin writes are delayed ends with none still to delay, so another such list can follow it. -/
theorem writesAreDelayed_append {a b : List MicroAction} (ha : writesAreDelayed a = true)
    (hb : writesAreDelayed b = true) : writesAreDelayed (a ++ b) = true := by
  induction a with
  | nil => exact hb
  | cons m a ih =>
    cases m with
    | drive l v =>
      cases a with
      | nil => cases ha
      | cons n a =>
        cases n with
        | wait => exact ih ha
        | drive | sample | configPullUp => cases ha
    | wait | sample | configPullUp => exact ih ha

theorem writesAreDelayed_flatMap {α : Type} {piece : α → List MicroAction}
    (h : ∀ x, writesAreDelayed (piece x) = true) (xs : List α) : writesAreDelayed (xs.flatMap piece) = true := by
  induction xs with
  | nil => rfl
  | cons x xs ih => exact writesAreDelayed_append (h x) ih

theorem writesAreDelayed_startSeq : writesAreDelayed startSeq = true := rfl

theorem writesAreDelayed_stopSeq : writesAreDelayed stopSeq = true := rfl

/-- WRITE_BYTE is made of Tx and one sample (40_bus_transport.md R108). -/
theorem writesAreDelayed_writeByteSeq (b : Byte) : writesAreDelayed (writeByteSeq b) = true :=
  writesAreDelayed_append (writesAreDelayed_flatMap (piece := bitSeq) (fun _ => rfl) (wireBits b)) rfl

theorem writesAreDelayed_transaction (bytes : List Byte) : writesAreDelayed (transaction bytes) = true :=
  writesAreDelayed_append
    (writesAreDelayed_append writesAreDelayed_startSeq (writesAreDelayed_flatMap writesAreDelayed_writeByteSeq bytes))
    writesAreDelayed_stopSeq

theorem writesAreDelayed_renderSeq (f : Frame) (e : Bool) (br : Int) : writesAreDelayed (renderSeq f e br) = true := by
  rw [renderSeq_eq]
  exact writesAreDelayed_flatMap writesAreDelayed_transaction _

/-- INIT's own pin writes are Tx too (43_session_ops.md R192). -/
theorem writesAreDelayed_initSeq (p : Params) : writesAreDelayed (initSeq p) = true :=
  writesAreDelayed_append rfl (writesAreDelayed_renderSeq _ _ _)

theorem writesAreDelayed_directSeq (i : Instr) : writesAreDelayed (directSeq i) = true := by
  cases i with
  | start => exact writesAreDelayed_startSeq
  | stop => exact writesAreDelayed_stopSeq
  | writeByte b => exact writesAreDelayed_writeByteSeq b
  | cmdDataAuto | cmdDataFixed | cmdData | cmdAddr | cmdAddrData | cmdCtrl | cmdCtrlTx =>
    exact writesAreDelayed_transaction _
  | render f e br => exact writesAreDelayed_renderSeq f e br
  | _ => rfl

/-- A direct call leaves its row's micro-actions in an idle block's QUEUE (log 7). -/
theorem exec_direct_queue {i : Instr} {s t : State} (hwire : (firstPrim i).isSome = true) (hq : s.queue = [])
    (h : exec i s = .next t) : t.queue = directSeq i := by
  obtain ⟨first, hfirst⟩ := Option.isSome_iff_exists.mp hwire
  rw [exec_eq_callDirect hfirst] at h
  rcases callDirect_next h with ⟨busy, -⟩ | ⟨-, -, rfl⟩
  · exact absurd hq busy
  · rfl

/-- Settles O45, by the effects an instruction can have on an idle block: a direct call leaves its row's micro-actions,
and an operation nothing, one control command, or a render. -/
theorem everyPinWriteIsDelayed : Obligations.EveryPinWriteIsDelayed := by
  intro i s t hq h
  cases exec_effect h with
  | held busy => exact absurd hq busy
  | completed | colonSet | lanes => exact congrArg writesAreDelayed hq
  | initialized => exact writesAreDelayed_initSeq _
  | levelSet => exact writesAreDelayed_transaction _
  | rendered => exact writesAreDelayed_renderSeq _ _ _
  | called q wire =>
    rw [exec_direct_queue wire hq h]
    exact writesAreDelayed_directSeq i

/-! ### Pin writes (70_reset_and_hazards.md R270) -/

theorem pinWrites_append (a b : List MicroAction) : pinWrites (a ++ b) = pinWrites a + pinWrites b := List.countP_append

/-- Three pin writes for each of eight bits, and four in the ACK slot (40_bus_transport.md R110). -/
theorem pinWrites_flatMap_writeByteSeq (bytes : List Byte) :
    pinWrites (bytes.flatMap writeByteSeq) = 28 * bytes.length := by
  have hbyte (b : Byte) : pinWrites (writeByteSeq b) = 28 := rfl
  induction bytes with
  | nil => rfl
  | cons b bytes ih => rw [List.flatMap_cons, pinWrites_append, hbyte, ih, List.length_cons, Nat.mul_succ, Nat.add_comm]

/-- Two pin writes of START, three of STOP, and those of the bytes. -/
theorem pinWrites_transaction (bytes : List Byte) : pinWrites (transaction bytes) = 28 * bytes.length + 5 := by
  have hstart : pinWrites startSeq = 2 := rfl
  have hstop : pinWrites stopSeq = 3 := rfl
  rw [transaction, pinWrites_append, pinWrites_append, pinWrites_flatMap_writeByteSeq, hstart, hstop]
  omega

/-- RENDER is two one-byte commands and four address commands (41_command_layer.md R134). -/
theorem pinWrites_renderSeq (f : Frame) (e : Bool) (br : Int) : pinWrites (renderSeq f e br) = 310 := by
  simp [renderSeq, cmdDataSeq, cmdAddrDataSeq, cmdAddrSeq, cmdCtrlSeq, cmdCtrlMaskedSeq, pinWrites_append,
    pinWrites_transaction]

/-- INIT drives each line high once before it renders (43_session_ops.md R192). -/
theorem pinWrites_initSeq (p : Params) : pinWrites (initSeq p) = 312 := by
  rw [initSeq, pinWrites_append, pinWrites_renderSeq]
  rfl

/-- The least time of a list with `n` pin writes (40_bus_transport.md R110). -/
theorem minMicros_of_pinWrites {q : List MicroAction} {n : Nat} (h : pinWrites q = n) : minMicros q = n * 5 :=
  congrArg (· * Config.tStepMicros) h

/-- Settles O44: a transaction's counts by its number of bytes, and RENDER and INIT as six transactions. -/
theorem operationPinWriteCounts : Obligations.OperationPinWriteCounts :=
  ⟨fun b => ⟨pinWrites_transaction [b], samples_transaction [b], minMicros_of_pinWrites (pinWrites_transaction [b])⟩,
    fun a b => ⟨pinWrites_transaction [a, b], samples_transaction [a, b],
      minMicros_of_pinWrites (pinWrites_transaction [a, b])⟩,
    fun f e br => ⟨pinWrites_renderSeq f e br, samples_renderSeq f e br,
      minMicros_of_pinWrites (pinWrites_renderSeq f e br)⟩,
    fun p => ⟨pinWrites_initSeq p, samples_initSeq p, minMicros_of_pinWrites (pinWrites_initSeq p)⟩⟩

end Sys2Proof.Machine
end
